-- ==== Sys2Proof/Word.lean ====
section
/-! DEFINITION. The word type of the core: every stream and every memory is one byte wide
(20_memory.md R58), and a byte is an unsigned integer 0..255 (00_scope.md R10). -/

namespace Sys2Proof

/-- A byte: 8 bits, bit 0 the least significant (00_scope.md R10). -/
abbrev Byte := BitVec 8

end Sys2Proof
end

