-- ==== Sys2Proof/Config.lean ====
section
/-! DEFINITION. What the document fixes as constants (00_scope.md R7), and the parameters it leaves
open (00_scope.md R8) as one record `Params` with the constraints the spec puts on them.
The default values stand in Machine/Defaults.lean. -/

namespace Sys2Proof

/-- Channel targets of the mapper, in the document's order (42_channel_mapper.md R150). -/
inductive Target
  | burstNormal | rach | accessBurst | bcch | pch | sdcch | accSdcch | tchF | tchH | ccch | agch
  | unknown
deriving DecidableEq, Repr

/-- What one mapper lookup answers: `map(c) = (is_burst, target)` (42_channel_mapper.md R170). -/
structure MapResult where
  isBurst : Bool
  target : Target
deriving DecidableEq, Repr

/-- `STX`, the start marker (00_scope.md R7). -/
def stx : Byte := 0x02
/-- `ETX`, the end marker (00_scope.md R7). -/
def etx : Byte := 0x03
/-- `TRACE_APPID`, the only AppID dispatched (00_scope.md R7). -/
def traceAppId : Byte := 0x00
/-- `PAYLOAD_CAP`, the payload capacity in bytes (00_scope.md R7, 20_memory.md R50). -/
abbrev payloadCap : Nat := 255
/-- `META_BYTES`, the leading payload bytes that are not trace content (00_scope.md R7). -/
abbrev metaBytes : Nat := 5
/-- `FMT_BYTE`, the payload index of format code and uplink bit (00_scope.md R7). -/
abbrev fmtByte : Nat := 2
/-- `CLEN_HI` and `CLEN_LO`, the payload indices of the content length (00_scope.md R7). -/
abbrev clenHi : Nat := 3
abbrev clenLo : Nat := 4

/-- The parameter `SUBTYPE_CODE`: the `sub_type` byte of each target (42_channel_mapper.md R172). -/
structure SubtypeCode where
  burstNormal : Byte
  rach : Byte
  accessBurst : Byte
  bcch : Byte
  pch : Byte
  sdcch : Byte
  accSdcch : Byte
  tchF : Byte
  tchH : Byte
  ccch : Byte
  agch : Byte
  unknown : Byte
deriving DecidableEq, Repr

/-- The parameter `GSMTAP_LAYOUT`: the byte offset of each header field (30_encoding.md R80).
`arfcn` takes two bytes and `frameNumber` four, each from its offset on. -/
structure Layout where
  version : Nat
  hdrLen : Nat
  frameType : Nat
  timeslot : Nat
  arfcn : Nat
  signalDbm : Nat
  snrDb : Nat
  frameNumber : Nat
  subType : Nat
  antennaNr : Nat
  subSlot : Nat
  res : Nat
deriving DecidableEq, Repr

/-- Every offset a header field occupies, in the order of 30_encoding.md R80. -/
def Layout.offsets (l : Layout) : List Nat :=
  [l.version, l.hdrLen, l.frameType, l.timeslot, l.arfcn, l.arfcn + 1, l.signalDbm, l.snrDb,
   l.frameNumber, l.frameNumber + 1, l.frameNumber + 2, l.frameNumber + 3,
   l.subType, l.antennaNr, l.subSlot, l.res]

/-- The parameters the document leaves open (00_scope.md R8). -/
structure Params where
  /-- `CNT_W`: width in bits of every counter. -/
  cntW : Nat
  /-- `LUT`: the target of each format code; a code not listed is `unknown` (R153). -/
  lut : List Target
  subtypeCode : SubtypeCode
  /-- `GSMTAP_VERSION`. -/
  version : Byte
  /-- `GSMTAP_HDR_WORDS`: the header is `4 * hdrWords` bytes. -/
  hdrWords : Byte
  /-- `GSMTAP_TYPE_UM`. -/
  typeUm : Byte
  /-- `GSMTAP_TYPE_UM_BURST`. -/
  typeUmBurst : Byte
  /-- `GSMTAP_ARFCN_F_UPLINK`. -/
  arfcnUplink : BitVec 16
  layout : Layout
deriving DecidableEq, Repr

/-- `LUT[c]`; codes without an entry are unknown (42_channel_mapper.md R153, point 5). -/
def Params.target (p : Params) (c : BitVec 4) : Target := p.lut.getD c.toNat .unknown

/-- The burst targets of the list (42_channel_mapper.md R153, point 4). -/
def Target.isBurstTarget (t : Target) : Bool := t = .burstNormal || t = .accessBurst

/-- The constraints every value of `LUT` satisfies (42_channel_mapper.md R153, points 1 to 5). -/
abbrev Params.lutOk (p : Params) : Prop :=
  p.lut.length = 16 ∧
  (p.target 6 = .unknown ∧ p.target 13 = .unknown ∧ p.target 14 = .unknown ∧ p.target 15 = .unknown) ∧
  p.target 3 = .bcch ∧
  (∀ c : BitVec 4, (p.target c).isBurstTarget = (c = 0 || c = 2))

/-- The header fields lie inside the header and do not overlap (30_encoding.md R80). -/
abbrev Params.layoutOk (p : Params) : Prop :=
  p.layout.offsets.Nodup ∧ ∀ o ∈ p.layout.offsets, o < 4 * p.hdrWords.toNat

/-- The constraints on the open parameters in one place (92_eei_decisions.md, "Open parameters in
one place"); that the fields lie in the header is the meaning of a layout (log entry 3). -/
abbrev Params.ok (p : Params) : Prop :=
  0 < p.cntW ∧ p.lutOk ∧ p.layoutOk ∧ p.typeUm ≠ p.typeUmBurst

end Sys2Proof
end

