-- ==== Sys2Proof/Syntax.lean ====
section
/-! DEFINITION. The event alphabet (10_state.md R30), the decoder states that select an operation
(10_state.md R26), the `Frame` record (10_state.md R22), and the operations of the core: one
constructor of `Instr` per row of spec/opcode_table.json (30_encoding.md R90). -/

namespace Sys2Proof

/-- The input of one step (10_state.md R30). -/
inductive Event
  | byte (b : Byte) | retry | endOfStream | fatal | stop
deriving DecidableEq, Repr

/-- The resting states of the Frame Decoder (10_state.md R26, 41_frame_decoder.md R111). -/
inductive DecState
  | awaitStart | readHeader | readPayload | readTrailer | halted
deriving DecidableEq, Repr

/-- The record the decoder hands to the encoder (10_state.md R22). -/
structure Frame where
  appId : Byte
  payload : List Byte
  receivedChecksum : Byte
deriving DecidableEq, Repr

/-- One beat of the event input: `rx_valid`, `rx_kind`, `rx_data` (10_state.md R34). -/
structure RxBeat where
  valid : Bool
  kind : BitVec 2
  data : Byte
deriving DecidableEq, Repr

/-- The operations of the core (30_encoding.md R90). A byte operand is the byte of the event; `ign`
and `ul` of a MAP row are bits 7..5 and bit 0 of payload byte 2, which take no part in the lookup
(42_channel_mapper.md section 3); `hi` of a DIR row is bits 7..1. -/
inductive Instr
  | asSkip (b : Byte)
  | asStx
  | rhAppid (b : Byte)
  | rhLenhi (b : Byte)
  | rhLenlo (b : Byte)
  | rpData (b : Byte)
  | rtFcs (b : Byte)
  | rtBadetx (b : Byte)
  | rtEtx
  | evRetry
  | evEos
  | evFatal
  | evStop
  | haltIgn (e : Event)
  | map0 (ign : BitVec 3) (ul : BitVec 1)
  | map1 (ign : BitVec 3) (ul : BitVec 1)
  | map2 (ign : BitVec 3) (ul : BitVec 1)
  | map3 (ign : BitVec 3) (ul : BitVec 1)
  | map4 (ign : BitVec 3) (ul : BitVec 1)
  | map5 (ign : BitVec 3) (ul : BitVec 1)
  | map6 (ign : BitVec 3) (ul : BitVec 1)
  | map7 (ign : BitVec 3) (ul : BitVec 1)
  | map8 (ign : BitVec 3) (ul : BitVec 1)
  | map9 (ign : BitVec 3) (ul : BitVec 1)
  | map10 (ign : BitVec 3) (ul : BitVec 1)
  | map11 (ign : BitVec 3) (ul : BitVec 1)
  | map12 (ign : BitVec 3) (ul : BitVec 1)
  | map13 (ign : BitVec 3) (ul : BitVec 1)
  | map14 (ign : BitVec 3) (ul : BitVec 1)
  | map15 (ign : BitVec 3) (ul : BitVec 1)
  | dirDl (hi : BitVec 7)
  | dirUl (hi : BitVec 7)
  | gtEnc (f : Frame)
  | crEn
  | crDis
deriving DecidableEq, Repr

end Sys2Proof
end

