-- ==== Sys2Proof/WellFormed.lean ====
section
/-! DEFINITION. Which terms of `Instr` stand for an operation of the core: the negative byte matches
of AS.SKIP and RT.BADETX (30_encoding.md R90) and the precondition of GT.ENC (43_gsmtap_encoder.md
R180, R185). -/

namespace Sys2Proof

/-- A `Frame` record the encoder is defined for: trace AppID, payload length 0..255
(43_gsmtap_encoder.md R180). -/
abbrev Frame.wf (f : Frame) : Prop := f.appId = traceAppId ∧ f.payload.length ≤ payloadCap

/-- An instruction as the table gives it. Every operand not named here takes every value. -/
def Instr.wf : Instr → Bool
  | .asSkip b => b ≠ stx
  | .rtBadetx b => b ≠ etx
  | .gtEnc f => f.wf
  | .asStx | .rhAppid _ | .rhLenhi _ | .rhLenlo _ | .rpData _ | .rtFcs _ | .rtEtx => true
  | .evRetry | .evEos | .evFatal | .evStop | .haltIgn _ => true
  | .map0 _ _ | .map1 _ _ | .map2 _ _ | .map3 _ _ | .map4 _ _ | .map5 _ _ | .map6 _ _
  | .map7 _ _ => true
  | .map8 _ _ | .map9 _ _ | .map10 _ _ | .map11 _ _ | .map12 _ _ | .map13 _ _ | .map14 _ _
  | .map15 _ _ => true
  | .dirDl _ | .dirUl _ | .crEn | .crDis => true

end Sys2Proof
end

