-- ==== Sys2Proof/Decode.lean ====
section
/-! DEFINITION. Decode: from the coded position and the event ports, or from the operand of a pure
unit, to one instruction or a rejection by name (30_encoding.md R90, 41_frame_decoder.md R112,
10_state.md R26 and R34). After it the encoder, and the host's entry `decodeTableWord`. -/

namespace Sys2Proof

/-! ### Codes and fields -/

/-- The codes of `st` (10_state.md R26). -/
def DecState.code : DecState → BitVec 3
  | .awaitStart => 0 | .readHeader => 1 | .readPayload => 2 | .readTrailer => 3 | .halted => 4

/-- Codes 5 to 7 never occur (10_state.md R26). -/
def DecState.ofCode (c : BitVec 3) : Option DecState :=
  if c = 0 then some .awaitStart else if c = 1 then some .readHeader
  else if c = 2 then some .readPayload else if c = 3 then some .readTrailer
  else if c = 4 then some .halted else none

/-- `format_code = payload[2][4:1]` (30_encoding.md R77). -/
def formatCode (p2 : Byte) : BitVec 4 := p2.extractLsb' 1 4

/-- `uplink = payload[2][0]` (30_encoding.md R77). -/
def uplinkBit (p2 : Byte) : BitVec 1 := p2.extractLsb' 0 1

/-- Bits 7..5 of payload byte 2, not interpreted (20_memory.md R59). -/
def ignoredBits (p2 : Byte) : BitVec 3 := p2.extractLsb' 5 3

/-- Bits 7..1 of payload byte 2, which the direction test does not look at (42_channel_mapper.md
R151). -/
def directionRest (p2 : Byte) : BitVec 7 := p2.extractLsb' 1 7

/-- Payload byte 2 from its three fields (30_encoding.md R77). -/
def fmtByteOf (ign : BitVec 3) (c : BitVec 4) (ul : BitVec 1) : Byte := ign ++ c ++ ul

/-! ### The event ports -/

/-- What the core samples in one cycle: the stop level and the presented beat (10_state.md R34). -/
structure EventPort where
  stopReq : Bool
  rx : RxBeat
deriving DecidableEq, Repr

/-- A beat that presents nothing. -/
abbrev RxBeat.idle : RxBeat := ⟨false, 0, 0⟩

/-- The event a sample stands for: the stop request wins over a presented event, nothing presented
is `Retry`, and `rx_kind` 3 is handled as `Fatal` (10_state.md R34, R35; 92_eei_decisions.md D4). -/
def portEvent (p : EventPort) : Event :=
  if p.stopReq then .stop
  else if !p.rx.valid then .retry
  else if p.rx.kind = 0 then .byte p.rx.data
  else if p.rx.kind = 1 then .endOfStream
  else .fatal

/-- The coding of an event on the ports (10_state.md R34). -/
def eventPort : Event → EventPort
  | .byte b => ⟨false, ⟨true, 0, b⟩⟩
  | .retry => ⟨false, .idle⟩
  | .endOfStream => ⟨false, ⟨true, 1, 0⟩⟩
  | .fatal => ⟨false, ⟨true, 2, 0⟩⟩
  | .stop => ⟨true, .idle⟩

/-! ### Decode -/

/-- What selects an operation (30_encoding.md R90): for the first group the coded decoder state, the
index and the event ports; for the others the operand of the unit called. -/
inductive OpWord
  | position (st : BitVec 3) (idx : BitVec 2) (port : EventPort)
  | mapper (p2 : Byte)
  | direction (p2 : Byte)
  | frame (f : Frame)
  | control (enable : Bool)
deriving DecidableEq, Repr

/-- Why a word is no instruction. -/
inductive DecodeReject
  /-- `st` code 5, 6 or 7 (41_frame_decoder.md R112). -/
  | stateCode
  /-- Any event in `ReadHeader` with `idx = 3` (41_frame_decoder.md R112). -/
  | headerIndex
  /-- Any event in `ReadTrailer` with `idx` 2 or 3 (41_frame_decoder.md R112). -/
  | trailerIndex
  /-- A record the encoder is not defined for (43_gsmtap_encoder.md R180). -/
  | frameRecord
deriving DecidableEq, Repr

/-- The rejection of a position to which the table of 41_frame_decoder.md R112 gives no row, whatever
the event; none where it has one. -/
def positionReject (st : DecState) (idx : BitVec 2) : Option DecodeReject :=
  match st with
  | .awaitStart | .readPayload | .halted => none
  | .readHeader => if idx = 3 then some .headerIndex else none
  | .readTrailer => if idx = 0 || idx = 1 then none else some .trailerIndex

/-- The `Byte(b)` column of the table of 41_frame_decoder.md R112. -/
def decodeByte (st : DecState) (idx : BitVec 2) (b : Byte) : Except DecodeReject Instr :=
  match st with
  | .awaitStart => .ok (if b = stx then .asStx else .asSkip b)
  | .readHeader =>
    if idx = 0 then .ok (.rhAppid b) else if idx = 1 then .ok (.rhLenhi b)
    else if idx = 2 then .ok (.rhLenlo b) else .error .headerIndex
  | .readPayload => .ok (.rpData b)
  | .readTrailer =>
    if idx = 0 then .ok (.rtFcs b)
    else if idx = 1 then .ok (if b = etx then .rtEtx else .rtBadetx b)
    else .error .trailerIndex
  | .halted => .ok (.haltIgn (.byte b))

/-- The table of 41_frame_decoder.md R112: a position without a row is rejected, then the column of the
event selects. -/
def decodeEvent (st : DecState) (idx : BitVec 2) (e : Event) : Except DecodeReject Instr :=
  match positionReject st idx with
  | some r => .error r
  | none =>
    if st = .halted then .ok (.haltIgn e)
    else match e with
      | .byte b => decodeByte st idx b
      | .retry => .ok .evRetry
      | .endOfStream => .ok .evEos
      | .fatal => .ok .evFatal
      | .stop => .ok .evStop

/-- The row MAP.c of a format code (30_encoding.md R90). -/
def mapInstr (c : BitVec 4) (ign : BitVec 3) (ul : BitVec 1) : Instr :=
  match c.toNat with
  | 0 => .map0 ign ul
  | 1 => .map1 ign ul
  | 2 => .map2 ign ul
  | 3 => .map3 ign ul
  | 4 => .map4 ign ul
  | 5 => .map5 ign ul
  | 6 => .map6 ign ul
  | 7 => .map7 ign ul
  | 8 => .map8 ign ul
  | 9 => .map9 ign ul
  | 10 => .map10 ign ul
  | 11 => .map11 ign ul
  | 12 => .map12 ign ul
  | 13 => .map13 ign ul
  | 14 => .map14 ign ul
  | _ => .map15 ign ul

/-- The rows DIR.DL and DIR.UL (30_encoding.md R90). -/
def dirInstr (p2 : Byte) : Instr :=
  if uplinkBit p2 = 1 then .dirUl (directionRest p2) else .dirDl (directionRest p2)

/-- Total on every word; rejects by name. -/
def decode : OpWord → Except DecodeReject Instr
  | .position code idx port =>
    match DecState.ofCode code with
    | none => .error .stateCode
    | some st => decodeEvent st idx (portEvent port)
  | .mapper p2 => .ok (mapInstr (formatCode p2) (ignoredBits p2) (uplinkBit p2))
  | .direction p2 => .ok (dirInstr p2)
  | .frame f => if f.wf then .ok (.gtEnc f) else .error .frameRecord
  | .control enable => .ok (if enable then .crEn else .crDis)

/-! ### Encode -/

/-- The word of an event at a position. -/
def eventWord (st : DecState) (idx : BitVec 2) (e : Event) : OpWord :=
  .position st.code idx (eventPort e)

/-- The word of an instruction, from the selectors of 30_encoding.md R90; where the table says "any"
(the index in `AwaitStart`, the state of an EV row) the word takes `AwaitStart` and index 0. -/
def encode : Instr → OpWord
  | .asSkip b => eventWord .awaitStart 0 (.byte b)
  | .asStx => eventWord .awaitStart 0 (.byte stx)
  | .rhAppid b => eventWord .readHeader 0 (.byte b)
  | .rhLenhi b => eventWord .readHeader 1 (.byte b)
  | .rhLenlo b => eventWord .readHeader 2 (.byte b)
  | .rpData b => eventWord .readPayload 0 (.byte b)
  | .rtFcs b => eventWord .readTrailer 0 (.byte b)
  | .rtBadetx b => eventWord .readTrailer 1 (.byte b)
  | .rtEtx => eventWord .readTrailer 1 (.byte etx)
  | .evRetry => eventWord .awaitStart 0 .retry
  | .evEos => eventWord .awaitStart 0 .endOfStream
  | .evFatal => eventWord .awaitStart 0 .fatal
  | .evStop => eventWord .awaitStart 0 .stop
  | .haltIgn e => eventWord .halted 0 e
  | .map0 ign ul => .mapper (fmtByteOf ign 0 ul)
  | .map1 ign ul => .mapper (fmtByteOf ign 1 ul)
  | .map2 ign ul => .mapper (fmtByteOf ign 2 ul)
  | .map3 ign ul => .mapper (fmtByteOf ign 3 ul)
  | .map4 ign ul => .mapper (fmtByteOf ign 4 ul)
  | .map5 ign ul => .mapper (fmtByteOf ign 5 ul)
  | .map6 ign ul => .mapper (fmtByteOf ign 6 ul)
  | .map7 ign ul => .mapper (fmtByteOf ign 7 ul)
  | .map8 ign ul => .mapper (fmtByteOf ign 8 ul)
  | .map9 ign ul => .mapper (fmtByteOf ign 9 ul)
  | .map10 ign ul => .mapper (fmtByteOf ign 10 ul)
  | .map11 ign ul => .mapper (fmtByteOf ign 11 ul)
  | .map12 ign ul => .mapper (fmtByteOf ign 12 ul)
  | .map13 ign ul => .mapper (fmtByteOf ign 13 ul)
  | .map14 ign ul => .mapper (fmtByteOf ign 14 ul)
  | .map15 ign ul => .mapper (fmtByteOf ign 15 ul)
  | .dirDl hi => .direction (hi ++ (0 : BitVec 1))
  | .dirUl hi => .direction (hi ++ (1 : BitVec 1))
  | .gtEnc f => .frame f
  | .crEn => .control true
  | .crDis => .control false

/-! ### The host's table words -/

/-- A table word of one byte does not carry its selector (the state and the index, or the unit
called): rows share byte values. The byte is looked up among the rows' own match values, the widest
mask first (AS.STX, RT.ETX: mask FF; MAP.c: mask 1E; DIR.UL: mask 01); a byte that is no row's match
value is read as the first byte after reset (log entry 10). -/
def byteRow (b : Byte) : OpWord :=
  if b = stx then eventWord .awaitStart 0 (.byte b)
  else if b = etx then eventWord .readTrailer 1 (.byte b)
  else if b &&& 0xE1 = 0 then .mapper b
  else if b = 1 then .direction b
  else eventWord .awaitStart 0 (.byte b)

/-- The match values of the rows CR.EN and CR.DIS: the twelve output bytes as one number, index 0
most significant (spec/opcode_table.json). -/
abbrev crEnMatch : Nat := 0x02000006001F0000003F2603
abbrev crDisMatch : Nat := 0x02000006001F000000001903

/-- The selecting word of a table word: no byte presented for a row without bits, one byte, or the
twelve bytes of a control request (log entry 10). -/
def tableWord (nbits w : Nat) : Option OpWord :=
  if nbits = 0 then some (eventWord .awaitStart 0 .retry)
  else if nbits = 8 then some (byteRow (BitVec.ofNat 8 w))
  else if nbits = 96 then
    if w = crEnMatch then some (.control true)
    else if w = crDisMatch then some (.control false)
    else none
  else none

/-- The instruction the decoder reads from a word of spec/opcode_table.json. -/
def decodeTableWord (nbits w : Nat) : Option Instr :=
  match tableWord nbits w with
  | none => none
  | some word =>
    match decode word with
    | .ok i => some i
    | .error _ => none

end Sys2Proof
end

