-- ==== Sys2Proof/Machine/Defaults.lean ====
section
/-! DEFINITION. The defaults of the open parameters (00_scope.md R8). The table `LUT` is the spec's
decision D14, the numbers are its general knowledge G1 to G6 (93_implementation_defined.md); a claim
that names one of them rests on those, not on the document. And the byte that an index of the payload
buffer holds at reset, which the spec leaves at any value (log entry 2). -/

namespace Sys2Proof.Machine

/-- What an index of `pbuf` that is not listed holds, hence every index at reset. DESIGN CHOICE: the spec
leaves the reset contents unspecified, any value (10_state.md R37, U8; log entry 2). -/
def unlistedByte : Byte := 0x00

/-- The default of `LUT` (42_channel_mapper.md R154 to R170). -/
def defaultLut : List Target :=
  [.burstNormal, .rach, .accessBurst, .bcch, .pch, .sdcch, .unknown, .sdcch,
   .accSdcch, .tchF, .tchH, .ccch, .agch, .unknown, .unknown, .unknown]

/-- The default of `SUBTYPE_CODE` (42_channel_mapper.md R172). -/
def defaultSubtypeCode : SubtypeCode where
  burstNormal := 0x06
  accessBurst := 0x08
  rach := 0x03
  bcch := 0x01
  pch := 0x05
  sdcch := 0x06
  accSdcch := 0x07
  tchF := 0x09
  tchH := 0x0A
  ccch := 0x02
  agch := 0x04
  unknown := 0x00

/-- The default of `GSMTAP_LAYOUT` (30_encoding.md R80). -/
def defaultLayout : Layout where
  version := 0
  hdrLen := 1
  frameType := 2
  timeslot := 3
  arfcn := 4
  signalDbm := 6
  snrDb := 7
  frameNumber := 8
  subType := 12
  antennaNr := 13
  subSlot := 14
  res := 15

/-- Every default of 00_scope.md R8. -/
def defaultParams : Params where
  cntW := 32
  lut := defaultLut
  subtypeCode := defaultSubtypeCode
  version := 0x02
  hdrWords := 0x04
  typeUm := 0x01
  typeUmBurst := 0x03
  arfcnUplink := 0x4000
  layout := defaultLayout

end Sys2Proof.Machine
end

