-- ==== Sys2Proof/Machine/State.lean ====
section
/-! DEFINITION. The state of the core as plain data (10_state.md R21 to R37), the reasons a step can
stop, and the state after reset. -/

namespace Sys2Proof.Machine

/-- `halt_cause` (10_state.md R26). -/
inductive HaltCause
  | none | endOfStream | fatal | stopped
deriving DecidableEq, Repr

/-- What a decode or encode cycle reports (10_state.md R33). -/
inductive CycleOutcome
  | ok (f : Frame)
  | oversizeLength
  | wrongTerminator
  | checksumMismatch
  | filteredAppId
  | encodeTruncated
  | ioFatalEndOfStream
  | ioFatalFatal
  | stopped
deriving DecidableEq, Repr

/-- One output of a step (10_state.md R32). -/
inductive Output
  | outcome (o : CycleOutcome)
  | packet (bytes : List Byte)
deriving DecidableEq, Repr

/-- One byte of an outgoing stream with its last flag: `pkt_data` and `pkt_last`, or `ctrl_data` and
`ctrl_last` (10_state.md R34). -/
structure Beat where
  data : Byte
  last : Bool
deriving DecidableEq, Repr

/-- The status counters (10_state.md R27), each a number below `2 ^ CNT_W`. -/
structure Counters where
  nOk : Nat
  nErr : Nat
  nCksum : Nat
  nFiltered : Nat
  nEncErr : Nat
deriving DecidableEq, Repr

/-- A call of a pure unit on its own (92_eei_decisions.md D1; log entry 6): the mapper, the direction
test, the encoder. -/
inductive UnitCall
  | mapper (p2 : Byte)
  | direction (p2 : Byte)
  | encode (f : Frame)
deriving DecidableEq, Repr

/-- The party that moves in one step of the model (10_state.md R20; log entries 4 and 8). -/
inductive Act
  /-- The decoder's turn: the presented beat or the stop request is looked at (R35). -/
  | rx
  /-- The sink takes the presented packet byte (`pkt_valid && pkt_ready`). -/
  | pkt
  /-- The requester takes the presented control byte (`ctrl_valid && ctrl_ready`). -/
  | ctrl
  /-- `ctrl_req` with `ctrl_enable` (R36). -/
  | ctrlReq (enable : Bool)
  /-- The observer sets the level of `stop_req`. -/
  | stopReq (level : Bool)
  /-- `rst` high at a clock edge (70_reset_and_hazards.md R250). -/
  | rst
  /-- A unit called on its own (log entry 6). -/
  | call (c : UnitCall)
deriving DecidableEq, Repr

/-- A memory of bytes: pairs of index and byte. An index not listed holds `unlistedByte` (log entry 2). -/
abbrev Memory := List Host.Cell

/-- The canonical form of `pbuf`: indices strictly rising, none above 254 (20_memory.md R50), and no entry
that says what an unlisted index holds anyway; so equal contents are equal data. -/
abbrev Memory.wf (m : Memory) : Prop :=
  m.Pairwise (fun x y => x.1 < y.1) ∧ ∀ c ∈ m, c.1 < payloadCap ∧ c.2 ≠ unlistedByte

/-- Everything the spec gives the core, the parameters it runs with, the environment's pending inputs
and the record of what has left it (INVENTORY.md, State). -/
structure State where
  cfg : Params
  st : DecState
  idx : BitVec 2
  haltCause : HaltCause
  appId : Byte
  dlen : BitVec 13
  csum : Byte
  cnt : Byte
  fcsRx : Byte
  ctr : Counters
  pbuf : Memory
  pktTx : List Beat
  ctrlTx : List Beat
  mapOut : MapResult
  dirOut : Bool
  out : List Output
  pktLog : List Beat
  ctrlLog : List Beat
  source : List RxBeat
  stopReq : Bool
  agenda : List Act
deriving DecidableEq, Repr

/-- Why the machine stops with a fault. It does not arise from a state that meets `State.inv`
(Safety.lean). -/
inductive Fault
  /-- An index above 254 of `pbuf` (20_memory.md R50). Raised by RP.DATA's store and RT.ETX's reads
  through `memWrite` and `memRead`. Safe: the spec gives no byte there. -/
  | pbufRange
deriving DecidableEq, Repr

/-- Why the machine refuses an operation. -/
inductive Refusal
  /-- No meaning yet: raised by exec's arms only. Safe. -/
  | notModelled (mnemonic : String)
  /-- The operation is not the one the table of 41_frame_decoder.md R112 selects in this state.
  Raised by the meanings of the AS, RH, RP, RT, EV and HALT rows when exec is asked for them elsewhere;
  step never does. Safe. -/
  | notSelected
  /-- A position that cannot arise (41_frame_decoder.md R112, R130; 93_implementation_defined.md U10):
  raised by step on any event at such an index, and by RP.DATA when `cnt < dlen <= 255` fails. Safe:
  the spec asks for a refusal. -/
  | unreachablePosition
  /-- The encoder was called on a record it is not defined for (43_gsmtap_encoder.md R180, R185).
  Raised by step on such a unit call. Safe. -/
  | encoderPrecondition
deriving DecidableEq, Repr

/-- The state after reset (10_state.md R37). The data-path registers, which R37 leaves unspecified,
are 0 (log entry 1); `pbuf` lists nothing, so each of its 255 bytes is `unlistedByte` (log entry 2); the
parameters are the defaults (log entry 3); the environment has presented nothing (log entry 4). -/
def State.reset : State where
  cfg := defaultParams
  st := .awaitStart
  idx := 0
  haltCause := .none
  appId := 0
  dlen := 0
  csum := 0
  cnt := 0
  fcsRx := 0
  ctr := ⟨0, 0, 0, 0, 0⟩
  pbuf := []
  pktTx := []
  ctrlTx := []
  mapOut := ⟨false, .unknown⟩
  dirOut := false
  out := []
  pktLog := []
  ctrlLog := []
  source := []
  stopReq := false
  agenda := []

end Sys2Proof.Machine
end

