-- ==== Sys2Proof/Machine/Operands.lean ====
section
/-! DEFINITION. Operand forms: the fields of `LenHi` and `LenLo` (30_encoding.md R73, R74), the fields
of the payload metadata (30_encoding.md R77), and the bytes of the payload by index (20_memory.md
R59). -/

namespace Sys2Proof.Machine

/-- `{ b[4:0], 0x00 }`: bits 12..8 of the declared length from `LenHi`, the rest cleared
(41_frame_decoder.md R116). -/
def dlenFromHi (b : Byte) : BitVec 13 := b.extractLsb' 0 5 ++ (0 : Byte)

/-- `{ dlen[12:8], b }`: the declared length completed by `LenLo` (41_frame_decoder.md R117). -/
def dlenWithLo (dlen : BitVec 13) (b : Byte) : BitVec 13 := dlen.extractLsb' 8 5 ++ b

/-- `payload[i]` of a record's payload; the encoder looks only below the length it has checked
(43_gsmtap_encoder.md R181, R182). -/
def payloadByte (payload : List Byte) (i : Nat) : Byte := payload.getD i 0

/-- `content_length = (payload[3] << 8) | payload[4]`, big-endian, as an unbounded number so that
`5 + content_length` cannot wrap (43_gsmtap_encoder.md R181; 40_checksum.md R105). -/
def contentLength (payload : List Byte) : Nat :=
  (payloadByte payload clenHi).toNat * 256 + (payloadByte payload clenLo).toNat

/-- The trace content `payload[5 .. 5 + content_length)` (43_gsmtap_encoder.md R184). -/
def traceContent (payload : List Byte) : List Byte :=
  (payload.drop metaBytes).take (contentLength payload)

/-- The high and the low byte of a big-endian 16-bit quantity (20_memory.md R56). -/
def hiByte (v : BitVec 16) : Byte := v.extractLsb' 8 8
def loByte (v : BitVec 16) : Byte := v.extractLsb' 0 8

end Sys2Proof.Machine
end

