-- ==== Sys2Proof/Machine/Flags.lean ====
section
/-! DEFINITION. The conditions of 10_state.md R25. The core stores none of them; each is computed and
used inside one step. -/

namespace Sys2Proof.Machine

/-- `is_stx`. -/
def isStx (b : Byte) : Bool := b = stx

/-- `etx_ok`. -/
def etxOk (b : Byte) : Bool := b = etx

/-- `oversize`: the full 13-bit length against 255 (92_eei_decisions.md D23). -/
def oversize (d : BitVec 13) : Bool := payloadCap < d.toNat

/-- `empty`. -/
def emptyLength (d : BitVec 13) : Bool := d = 0

/-- `last_payload`: `cnt + 1 == dlen`, on unbounded integers. -/
def lastPayload (s : State) : Bool := s.cnt.toNat + 1 = s.dlen.toNat

/-- `fcs_ok`: `verify(csum, fcs_rx)` (40_checksum.md R101, R103). -/
def verify (computed received : Byte) : Bool := computed = received
def fcsOk (s : State) : Bool := verify s.csum s.fcsRx

/-- `trace_app`. -/
def traceApp (s : State) : Bool := s.appId = traceAppId

/-- `uplink` (42_channel_mapper.md R151). -/
def isUplink (p2 : Byte) : Bool := uplinkBit p2 = 1

/-- `is_burst`, of the format code alone (42_channel_mapper.md R152). -/
def isBurst (c : BitVec 4) : Bool := c = 0 || c = 2

/-- `truncated` (43_gsmtap_encoder.md R182). -/
def truncated (payload : List Byte) : Bool :=
  payload.length < metaBytes || payload.length < metaBytes + contentLength payload

/-- The position RP.DATA is defined for: `1 <= dlen <= 255` and `cnt < dlen` (20_memory.md R51). -/
def payloadPosition (s : State) : Bool := s.cnt.toNat < s.dlen.toNat && s.dlen.toNat ≤ payloadCap

end Sys2Proof.Machine
end

