-- ==== Sys2Proof/Machine/Ops.lean ====
section
/-! DEFINITION. The shared operations over registers, memory and outputs: the primitives of
00_scope.md R13, the accesses of 20_memory.md R50, taking an error (60_exceptions.md R220) and
halting (41_frame_decoder.md R126, R127). There is no return from an error, because nothing is
suspended: after `raiseError` the core is in `AwaitStart` and the ordinary rules go on
(60_exceptions.md R223). -/

namespace Sys2Proof.Machine

/-- The answer of a step. -/
abbrev Answer := Host.Outcome State Fault Refusal

/-! ### Outputs and counters -/

/-- `emit X` (00_scope.md R13). -/
def State.emit (o : Output) (s : State) : State := { s with out := s.out ++ [o] }

/-- `inc(c)`: `(c + 1) mod 2^CNT_W` (00_scope.md R13). -/
def incCounter (w c : Nat) : Nat := (c + 1) % 2 ^ w

/-- `inc(n_ok)`. -/
def State.countOk (s : State) : State :=
  { s with ctr := { s.ctr with nOk := incCounter s.cfg.cntW s.ctr.nOk } }

/-- `inc(n_err)`. -/
def State.countErr (s : State) : State :=
  { s with ctr := { s.ctr with nErr := incCounter s.cfg.cntW s.ctr.nErr } }

/-- `inc(n_cksum)`. -/
def State.countCksum (s : State) : State :=
  { s with ctr := { s.ctr with nCksum := incCounter s.cfg.cntW s.ctr.nCksum } }

/-- `inc(n_filtered)`. -/
def State.countFiltered (s : State) : State :=
  { s with ctr := { s.ctr with nFiltered := incCounter s.cfg.cntW s.ctr.nFiltered } }

/-- `inc(n_enc_err)`. -/
def State.countEncErr (s : State) : State :=
  { s with ctr := { s.ctr with nEncErr := incCounter s.cfg.cntW s.ctr.nEncErr } }

/-- `st <- S` (00_scope.md R13). -/
def State.goto (st : DecState) (s : State) : State := { s with st := st }

/-! ### The payload buffer -/

/-- The byte listed at an index. -/
def memLookup : Memory → Nat → Option Byte
  | [], _ => none
  | (k, v) :: m, a => if k = a then some v else memLookup m a

/-- `pbuf[i]` (20_memory.md R50): the byte listed at an index, else what an unlisted index holds. -/
def memByte (m : Memory) (a : Nat) : Byte := (memLookup m a).getD unlistedByte

/-- List a byte at an index, in rising order. -/
def memInsert : Memory → Nat → Byte → Memory
  | [], a, v => [(a, v)]
  | (k, w) :: m, a, v =>
    if a < k then (a, v) :: (k, w) :: m
    else if a = k then (a, v) :: m
    else (k, w) :: memInsert m a v

/-- List no byte at an index. -/
def memErase (m : Memory) (a : Nat) : Memory := m.filter (fun c => c.1 ≠ a)

/-- Store in the canonical form: what an unlisted index holds is not listed. -/
def memStore (m : Memory) (a : Nat) (v : Byte) : Memory :=
  if v = unlistedByte then memErase m a else memInsert m a v

/-- `MemRead(i, 1)` (20_memory.md R50): every index 0 to 254 holds a byte. -/
def memRead (m : Memory) (a : Nat) : Except Fault Byte :=
  if a < payloadCap then .ok (memByte m a) else .error .pbufRange

/-- `MemWrite(i, 1, v)` (20_memory.md R50). -/
def memWrite (m : Memory) (a : Nat) (v : Byte) : Except Fault Memory :=
  if a < payloadCap then .ok (memStore m a v) else .error .pbufRange

/-- `[ MemRead(i, 1) for i in from .. from + n - 1 ]`, in order; an index above 254 faults. -/
def memReadBytes (m : Memory) (start : Nat) : Nat → Except Fault (List Byte)
  | 0 => .ok []
  | n + 1 =>
    match memRead m start with
    | .error f => .error f
    | .ok b =>
      match memReadBytes m (start + 1) n with
      | .error f => .error f
      | .ok bs => .ok (b :: bs)

/-! ### Streams -/

/-- A byte sequence as beats, `last` with the final byte (10_state.md R34). -/
def beats : List Byte → List Beat
  | [] => []
  | [b] => [⟨b, true⟩]
  | b :: c :: bs => ⟨b, false⟩ :: beats (c :: bs)

/-- `emit Packet(p)`: the packet is an output of the step and goes to the packet serialiser
(43_gsmtap_encoder.md R187, 10_state.md R35). -/
def State.emitPacket (p : List Byte) (s : State) : State :=
  { s with out := s.out ++ [.packet p], pktTx := s.pktTx ++ beats p }

/-! ### Errors and halting -/

/-- The three errors that `raise` takes (60_exceptions.md R220). -/
inductive FrameError
  | oversizeLength | wrongTerminator | checksumMismatch
deriving DecidableEq, Repr

/-- The outcome an error is reported as (10_state.md R33). -/
def errorOutcome : FrameError → CycleOutcome
  | .oversizeLength => .oversizeLength
  | .wrongTerminator => .wrongTerminator
  | .checksumMismatch => .checksumMismatch

/-- `raise E` (60_exceptions.md R220). -/
def raiseError (e : FrameError) (s : State) : State :=
  let s1 := s.countErr
  let s2 := if e = .checksumMismatch then s1.countCksum else s1
  (s2.emit (.outcome (errorOutcome e))).goto .awaitStart

/-- Halt with a cause and the one outcome (41_frame_decoder.md R126, R127). -/
def haltWith (c : HaltCause) (o : CycleOutcome) (s : State) : State :=
  { s.emit (.outcome o) with st := .halted, haltCause := c }

/-! ### Selection -/

/-- An operation of the first group runs only where the table of 41_frame_decoder.md R112 selects it
("a model's last arm for them should refuse, not guess"). -/
def whenSelected (c : Bool) (k : Answer) : Answer := if c then k else .refused .notSelected

end Sys2Proof.Machine
end

