-- ==== Sys2Proof/Machine/Control.lean ====
section
/-! DEFINITION. The Control Request Encoder (44_control_request.md) and its serialiser (10_state.md
R36). -/

namespace Sys2Proof.Machine

/-- `CTRL_ROM` (20_memory.md R55). -/
def ctrlRom : List Byte :=
  [0x02, 0x00, 0x00, 0x06, 0x00, 0x1F, 0x00, 0x00, 0x00, 0x3F, 0x26, 0x03]

/-- `build(enable)` (44_control_request.md R201). -/
def buildControl (enable : Bool) : List Byte :=
  if enable then ctrlRom else (ctrlRom.set 9 0).set 10 25

/-- Start sending a control request, unless one is being sent (10_state.md R36). -/
def State.requestControl (enable : Bool) (s : State) : State :=
  if s.ctrlTx = [] then { s with ctrlTx := beats (buildControl enable) } else s

/-- CR.EN (R201). -/
def execCrEn (s : State) : Answer := .next (s.requestControl true)

/-- CR.DIS (R201). -/
def execCrDis (s : State) : Answer := .next (s.requestControl false)

end Sys2Proof.Machine
end

