-- ==== Sys2Proof/Machine/Events.lean ====
section
/-! DEFINITION. The Frame Decoder on events that are not bytes (41_frame_decoder.md R125 to R128,
60_exceptions.md R215). -/

namespace Sys2Proof.Machine

/-- EV.RETRY (R125): nothing was read. -/
def execEvRetry (s : State) : Answer := whenSelected (s.st ≠ .halted) (.next s)

/-- EV.EOS (R126). -/
def execEvEos (s : State) : Answer :=
  whenSelected (s.st ≠ .halted) (.next (haltWith .endOfStream .ioFatalEndOfStream s))

/-- EV.FATAL (R126). -/
def execEvFatal (s : State) : Answer :=
  whenSelected (s.st ≠ .halted) (.next (haltWith .fatal .ioFatalFatal s))

/-- EV.STOP (R127). -/
def execEvStop (s : State) : Answer :=
  whenSelected (s.st ≠ .halted) (.next (haltWith .stopped .stopped s))

/-- HALT.IGN (R128): a halted core ignores every event. -/
def execHaltIgn (_e : Event) (s : State) : Answer := whenSelected (s.st = .halted) (.next s)

end Sys2Proof.Machine
end

