-- ==== Sys2Proof/Machine/Checksum.lean ====
section
/-! DEFINITION. The Checksum Engine (40_checksum.md). `verify` stands in Flags.lean. -/

namespace Sys2Proof.Machine

/-- One byte folded into the running checksum (40_checksum.md R102). -/
def fold (csum b : Byte) : Byte := csum ^^^ b

/-- `compute`: exclusive-or over all bytes, starting from zero (40_checksum.md R100). -/
def compute (bytes : List Byte) : Byte := bytes.foldl fold 0

end Sys2Proof.Machine
end

