-- ==== Sys2Proof/Machine/Mapper.lean ====
section
/-! DEFINITION. The Channel-Type Mapper (42_channel_mapper.md): the lookup MAP.0 to MAP.15 and the
direction test DIR.DL, DIR.UL. The spec's mapper is a pure function; the model holds the last result
in `mapOut` and `dirOut` so that a lookup has a visible effect (log entry 6). -/

namespace Sys2Proof.Machine

/-- `map(c) = (is_burst, LUT[c])` (42_channel_mapper.md R170). -/
def mapCode (p : Params) (c : BitVec 4) : MapResult := ⟨isBurst c, p.target c⟩

/-- The lookup of a code, its result on the mapper's output. -/
def State.lookup (c : BitVec 4) (s : State) : State := { s with mapOut := mapCode s.cfg c }

/-- The direction test, its result on the mapper's output (42_channel_mapper.md R151). -/
def State.direction (uplink : Bool) (s : State) : State := { s with dirOut := uplink }

/-- MAP.0, format code 0 (R154). -/
def execMap0 (_ign : BitVec 3) (_ul : BitVec 1) (s : State) : Answer := .next (s.lookup 0)
/-- MAP.1, format code 1 (R155). -/
def execMap1 (_ign : BitVec 3) (_ul : BitVec 1) (s : State) : Answer := .next (s.lookup 1)
/-- MAP.2, format code 2 (R156). -/
def execMap2 (_ign : BitVec 3) (_ul : BitVec 1) (s : State) : Answer := .next (s.lookup 2)
/-- MAP.3, format code 3 (R157). -/
def execMap3 (_ign : BitVec 3) (_ul : BitVec 1) (s : State) : Answer := .next (s.lookup 3)
/-- MAP.4, format code 4 (R158). -/
def execMap4 (_ign : BitVec 3) (_ul : BitVec 1) (s : State) : Answer := .next (s.lookup 4)
/-- MAP.5, format code 5 (R159). -/
def execMap5 (_ign : BitVec 3) (_ul : BitVec 1) (s : State) : Answer := .next (s.lookup 5)
/-- MAP.6, format code 6 (R160). -/
def execMap6 (_ign : BitVec 3) (_ul : BitVec 1) (s : State) : Answer := .next (s.lookup 6)
/-- MAP.7, format code 7 (R161). -/
def execMap7 (_ign : BitVec 3) (_ul : BitVec 1) (s : State) : Answer := .next (s.lookup 7)
/-- MAP.8, format code 8 (R162). -/
def execMap8 (_ign : BitVec 3) (_ul : BitVec 1) (s : State) : Answer := .next (s.lookup 8)
/-- MAP.9, format code 9 (R163). -/
def execMap9 (_ign : BitVec 3) (_ul : BitVec 1) (s : State) : Answer := .next (s.lookup 9)
/-- MAP.10, format code 10 (R164). -/
def execMap10 (_ign : BitVec 3) (_ul : BitVec 1) (s : State) : Answer := .next (s.lookup 10)
/-- MAP.11, format code 11 (R165). -/
def execMap11 (_ign : BitVec 3) (_ul : BitVec 1) (s : State) : Answer := .next (s.lookup 11)
/-- MAP.12, format code 12 (R166). -/
def execMap12 (_ign : BitVec 3) (_ul : BitVec 1) (s : State) : Answer := .next (s.lookup 12)
/-- MAP.13, format code 13 (R167). -/
def execMap13 (_ign : BitVec 3) (_ul : BitVec 1) (s : State) : Answer := .next (s.lookup 13)
/-- MAP.14, format code 14 (R168). -/
def execMap14 (_ign : BitVec 3) (_ul : BitVec 1) (s : State) : Answer := .next (s.lookup 14)
/-- MAP.15, format code 15 (R169). -/
def execMap15 (_ign : BitVec 3) (_ul : BitVec 1) (s : State) : Answer := .next (s.lookup 15)

/-- DIR.DL (R151). -/
def execDirDl (_hi : BitVec 7) (s : State) : Answer := .next (s.direction false)
/-- DIR.UL (R151). -/
def execDirUl (_hi : BitVec 7) (s : State) : Answer := .next (s.direction true)

end Sys2Proof.Machine
end

