-- ==== Sys2Proof/Machine/Encoder.lean ====
section
/-! DEFINITION. The GSMTAP Encoder (43_gsmtap_encoder.md), over any value of the parameters. -/

namespace Sys2Proof.Machine

/-- `SUBTYPE_CODE[target]` (42_channel_mapper.md R172). -/
def subtypeOf (c : SubtypeCode) : Target → Byte
  | .burstNormal => c.burstNormal
  | .rach => c.rach
  | .accessBurst => c.accessBurst
  | .bcch => c.bcch
  | .pch => c.pch
  | .sdcch => c.sdcch
  | .accSdcch => c.accSdcch
  | .tchF => c.tchF
  | .tchH => c.tchH
  | .ccch => c.ccch
  | .agch => c.agch
  | .unknown => c.unknown

/-- The `type` byte follows `is_burst` only (42_channel_mapper.md R171). -/
def frameTypeOf (p : Params) (burst : Bool) : Byte := if burst then p.typeUmBurst else p.typeUm

/-- The `arfcn` field holds the uplink flag or zero (30_encoding.md R81). -/
def arfcnOf (p : Params) (uplink : Bool) : BitVec 16 := if uplink then p.arfcnUplink else 0

/-- Every header field with its offset and the byte the core writes (30_encoding.md R80). -/
def headerFields (p : Params) (m : MapResult) (uplink : Bool) : List (Nat × Byte) :=
  [(p.layout.version, p.version),
   (p.layout.hdrLen, p.hdrWords),
   (p.layout.frameType, frameTypeOf p m.isBurst),
   (p.layout.timeslot, 0),
   (p.layout.arfcn, hiByte (arfcnOf p uplink)),
   (p.layout.arfcn + 1, loByte (arfcnOf p uplink)),
   (p.layout.signalDbm, 0),
   (p.layout.snrDb, 0),
   (p.layout.frameNumber, 0),
   (p.layout.frameNumber + 1, 0),
   (p.layout.frameNumber + 2, 0),
   (p.layout.frameNumber + 3, 0),
   (p.layout.subType, subtypeOf p.subtypeCode m.target),
   (p.layout.antennaNr, 0),
   (p.layout.subSlot, 0),
   (p.layout.res, 0)]

/-- Lay fields over a byte sequence. -/
def placeFields (h : List Byte) (fields : List (Nat × Byte)) : List Byte :=
  fields.foldl (fun h f => h.set f.1 f.2) h

/-- `build_header`: `4 * GSMTAP_HDR_WORDS` bytes, all zero but the fields (43_gsmtap_encoder.md
R183, 30_encoding.md R80). -/
def buildHeader (p : Params) (m : MapResult) (uplink : Bool) : List Byte :=
  placeFields (List.replicate (4 * p.hdrWords.toNat) 0) (headerFields p m uplink)

/-- The packet of a payload, or none where the encoder signals Truncated (43_gsmtap_encoder.md R180,
R182, R187). -/
def encodePacket (p : Params) (payload : List Byte) : Option (List Byte) :=
  if truncated payload then none
  else
    let p2 := payloadByte payload fmtByte
    some (buildHeader p (mapCode p (formatCode p2)) (isUplink p2) ++ traceContent payload)

/-- `encode(frame)` (43_gsmtap_encoder.md R180): emit the packet, or count and report
`EncodeTruncated`. The lookups of the encode leave their results on the mapper's outputs (log entry
6). -/
def encodeFrame (f : Frame) (s : State) : State :=
  match encodePacket s.cfg f.payload with
  | none => s.countEncErr.emit (.outcome .encodeTruncated)
  | some packet =>
    let p2 := payloadByte f.payload fmtByte
    ((s.lookup (formatCode p2)).direction (isUplink p2)).emitPacket packet

/-- GT.ENC (R180). -/
def execGtEnc (f : Frame) (s : State) : Answer := .next (encodeFrame f s)

end Sys2Proof.Machine
end

