-- ==== Sys2Proof/Machine/FrameDecoder.lean ====
section
/-! DEFINITION. The Frame Decoder on bytes (41_frame_decoder.md R113 to R124). -/

namespace Sys2Proof.Machine

/-- AS.SKIP (R113): the byte is discarded. -/
def execAsSkip (b : Byte) (s : State) : Answer :=
  whenSelected (s.st = .awaitStart && !isStx b) (.next s)

/-- AS.STX (R114). -/
def execAsStx (s : State) : Answer :=
  whenSelected (s.st = .awaitStart) (.next { s with st := .readHeader, idx := 0 })

/-- RH.APPID (R115). -/
def execRhAppid (b : Byte) (s : State) : Answer :=
  whenSelected (s.st = .readHeader && s.idx = 0)
    (.next { s with appId := b, csum := fold 0 b, idx := 1 })

/-- RH.LENHI (R116): the length takes five bits, the checksum the whole byte. -/
def execRhLenhi (b : Byte) (s : State) : Answer :=
  whenSelected (s.st = .readHeader && s.idx = 1)
    (.next { s with dlen := dlenFromHi b, csum := fold s.csum b, idx := 2 })

/-- RH.LENLO (R117): the four register writes in every branch, then the length guard. -/
def execRhLenlo (b : Byte) (s : State) : Answer :=
  let d := dlenWithLo s.dlen b
  let s1 := { s with dlen := d, csum := fold s.csum b, cnt := 0, idx := 0 }
  whenSelected (s.st = .readHeader && s.idx = 2)
    (.next (if oversize d then raiseError .oversizeLength s1
      else if emptyLength d then s1.goto .readTrailer
      else s1.goto .readPayload))

/-- RP.DATA (R119): the core's only store. -/
def execRpData (b : Byte) (s : State) : Answer :=
  whenSelected (s.st = .readPayload)
    (if payloadPosition s then
      match memWrite s.pbuf s.cnt.toNat b with
      | .error f => .fault f
      | .ok m =>
        let s1 := { s with pbuf := m, csum := fold s.csum b, cnt := s.cnt + 1 }
        .next (if lastPayload s then { s1 with st := .readTrailer, idx := 0 } else s1)
    else .refused .unreachablePosition)

/-- RT.FCS (R120): the FCS byte is not folded into the running checksum. -/
def execRtFcs (b : Byte) (s : State) : Answer :=
  whenSelected (s.st = .readTrailer && s.idx = 0) (.next { s with fcsRx := b, idx := 1 })

/-- RT.BADETX (R121). -/
def execRtBadetx (b : Byte) (s : State) : Answer :=
  whenSelected (s.st = .readTrailer && s.idx = 1 && !etxOk b)
    (.next (raiseError .wrongTerminator { s with idx := 0 }))

/-- The channel guard (R123): a good frame on another channel is dropped. -/
def filterFrame (s : State) : State :=
  (s.countFiltered.emit (.outcome .filteredAppId)).goto .awaitStart

/-- The `Frame` record built at dispatch (R124, 10_state.md R22). -/
def readFrame (s : State) : Except Fault Frame :=
  match memReadBytes s.pbuf 0 s.dlen.toNat with
  | .error f => .error f
  | .ok payload => .ok ⟨s.appId, payload, s.fcsRx⟩

/-- Dispatch of a record that has been read (R124). -/
def dispatchFrame (f : Frame) (s : State) : State :=
  (encodeFrame f (s.countOk.emit (.outcome (.ok f)))).goto .awaitStart

/-- RT.ETX (R122): the checksum first, then the channel, then dispatch. -/
def execRtEtx (s : State) : Answer :=
  let s1 := { s with idx := 0 }
  whenSelected (s.st = .readTrailer && s.idx = 1)
    (if !fcsOk s then .next (raiseError .checksumMismatch s1)
    else if !traceApp s then .next (filterFrame s1)
    else match readFrame s with
      | .error f => .fault f
      | .ok f => .next (dispatchFrame f s1))

end Sys2Proof.Machine
end

