-- ==== Sys2Proof/Machine/Dispatch.lean ====
section
/-! DEFINITION. One arm per operation of the core (30_encoding.md R90). -/

namespace Sys2Proof.Machine

def exec (i : Instr) (s : State) : Host.Outcome State Fault Refusal :=
  match i with
  | .asSkip b => Sys2Proof.Machine.execAsSkip b s
  | .asStx => Sys2Proof.Machine.execAsStx s
  | .rhAppid b => Sys2Proof.Machine.execRhAppid b s
  | .rhLenhi b => Sys2Proof.Machine.execRhLenhi b s
  | .rhLenlo b => Sys2Proof.Machine.execRhLenlo b s
  | .rpData b => Sys2Proof.Machine.execRpData b s
  | .rtFcs b => Sys2Proof.Machine.execRtFcs b s
  | .rtBadetx b => Sys2Proof.Machine.execRtBadetx b s
  | .rtEtx => Sys2Proof.Machine.execRtEtx s
  | .evRetry => Sys2Proof.Machine.execEvRetry s
  | .evEos => Sys2Proof.Machine.execEvEos s
  | .evFatal => Sys2Proof.Machine.execEvFatal s
  | .evStop => Sys2Proof.Machine.execEvStop s
  | .haltIgn e => Sys2Proof.Machine.execHaltIgn e s
  | .map0 ign ul => Sys2Proof.Machine.execMap0 ign ul s
  | .map1 ign ul => Sys2Proof.Machine.execMap1 ign ul s
  | .map2 ign ul => Sys2Proof.Machine.execMap2 ign ul s
  | .map3 ign ul => Sys2Proof.Machine.execMap3 ign ul s
  | .map4 ign ul => Sys2Proof.Machine.execMap4 ign ul s
  | .map5 ign ul => Sys2Proof.Machine.execMap5 ign ul s
  | .map6 ign ul => Sys2Proof.Machine.execMap6 ign ul s
  | .map7 ign ul => Sys2Proof.Machine.execMap7 ign ul s
  | .map8 ign ul => Sys2Proof.Machine.execMap8 ign ul s
  | .map9 ign ul => Sys2Proof.Machine.execMap9 ign ul s
  | .map10 ign ul => Sys2Proof.Machine.execMap10 ign ul s
  | .map11 ign ul => Sys2Proof.Machine.execMap11 ign ul s
  | .map12 ign ul => Sys2Proof.Machine.execMap12 ign ul s
  | .map13 ign ul => Sys2Proof.Machine.execMap13 ign ul s
  | .map14 ign ul => Sys2Proof.Machine.execMap14 ign ul s
  | .map15 ign ul => Sys2Proof.Machine.execMap15 ign ul s
  | .dirDl hi => Sys2Proof.Machine.execDirDl hi s
  | .dirUl hi => Sys2Proof.Machine.execDirUl hi s
  | .gtEnc f => Sys2Proof.Machine.execGtEnc f s
  | .crEn => Sys2Proof.Machine.execCrEn s
  | .crDis => Sys2Proof.Machine.execCrDis s

end Sys2Proof.Machine
end

