-- ==== Sys2Proof/Machine/Ports.lean ====
section
/-! DEFINITION. The ports (10_state.md R34, R35) as functions of the state, what moves on them, and
reset (70_reset_and_hazards.md R250, R251). -/

namespace Sys2Proof.Machine

/-! ### Output ports -/

/-- `busy`: a packet is being sent (10_state.md R35). -/
def State.busy (s : State) : Bool := s.pktTx ≠ []

/-- `rx_ready = (st != Halted) && !busy && !stop_req` (10_state.md R35). -/
def State.rxReady (s : State) : Bool := s.st ≠ .halted && !s.busy && !s.stopReq

/-- `pkt_valid`. -/
def State.pktValid (s : State) : Bool := s.busy
/-- `pkt_data` and `pkt_last`, while `pkt_valid`. -/
def State.pktBeat (s : State) : Option Beat := s.pktTx.head?
/-- `ctrl_valid`. -/
def State.ctrlValid (s : State) : Bool := s.ctrlTx ≠ []
/-- `ctrl_data` and `ctrl_last`, while `ctrl_valid`. -/
def State.ctrlBeat (s : State) : Option Beat := s.ctrlTx.head?
/-- `halted` (10_state.md R34). -/
def State.haltedPort (s : State) : Bool := s.st = .halted
/-- `st` on an output port of its own, as its code (10_state.md R26, R29; log entry 14). -/
def State.stPort (s : State) : BitVec 3 := s.st.code
/-- `idx` on an output port of its own (10_state.md R26, R29; log entry 14). -/
def State.idxPort (s : State) : BitVec 2 := s.idx

/-- The code of `halt_cause` (10_state.md R26). -/
def haltCauseCode : HaltCause → BitVec 2
  | .none => 0 | .endOfStream => 1 | .fatal => 2 | .stopped => 3

/-- `halt_cause` on its port (10_state.md R26, R34). -/
def State.haltCausePort (s : State) : BitVec 2 := haltCauseCode s.haltCause
/-- `n_ok`, `n_err`, `n_cksum`, `n_filtered` and `n_enc_err` on their ports (10_state.md R27, R34). -/
def State.counterPorts (s : State) : Counters := s.ctr

/-- `evt_code` (10_state.md R33). -/
def outcomeCode : CycleOutcome → BitVec 4
  | .ok _ => 1
  | .oversizeLength => 2
  | .wrongTerminator => 3
  | .checksumMismatch => 4
  | .filteredAppId => 5
  | .encodeTruncated => 6
  | .ioFatalEndOfStream => 7
  | .ioFatalFatal => 8
  | .stopped => 9

/-- The code an output puts on `evt_code`, if it is an outcome. -/
def outputCode : Output → Option (BitVec 4)
  | .outcome o => some (outcomeCode o)
  | .packet _ => none

/-- The pulses on `evt_valid`, `evt_code` so far: one per outcome, in list order (10_state.md R35). -/
def State.evtPulses (s : State) : List (BitVec 4) := s.out.filterMap outputCode

/-! ### What the core samples and takes -/

/-- The sample of the event input in the decoder's turn. -/
def State.sample (s : State) : EventPort := ⟨s.stopReq, s.source.headD .idle⟩

/-- The presented beat leaves the source exactly when `rx_ready` is high (10_state.md R35). -/
def State.takeBeat (s : State) : State :=
  if s.rxReady then { s with source := s.source.tail } else s

/-- The sink takes the presented packet byte. -/
def State.takePkt (s : State) : State :=
  match s.pktTx with
  | [] => s
  | b :: rest => { s with pktTx := rest, pktLog := s.pktLog ++ [b] }

/-- The requester takes the presented control byte. -/
def State.takeCtrl (s : State) : State :=
  match s.ctrlTx with
  | [] => s
  | b :: rest => { s with ctrlTx := rest, ctrlLog := s.ctrlLog ++ [b] }

/-- The observer sets the stop request. -/
def State.setStop (level : Bool) (s : State) : State := { s with stopReq := level }

/-- Reset (70_reset_and_hazards.md R250, R251): what 10_state.md R37 gives a reset value takes it. The
buffer is not cleared (20_memory.md R53); the data-path registers, which R37 leaves unspecified, keep
what they held; the parameters, what has already left the core and what the environment still presents
are not the core's to reset (log entry 11). -/
def State.applyReset (s : State) : State :=
  { s with
    st := State.reset.st, idx := State.reset.idx, haltCause := State.reset.haltCause,
    ctr := State.reset.ctr, pktTx := State.reset.pktTx, ctrlTx := State.reset.ctrlTx,
    mapOut := State.reset.mapOut, dirOut := State.reset.dirOut }

end Sys2Proof.Machine
end

