-- ==== Sys2Proof/Machine/Acts.lean ====
section
/-! DEFINITION. Fetch, decode and execute: one event handled (00_scope.md R14, 41_frame_decoder.md
R112), and one act of a party of the environment (10_state.md R20, R35, R36). -/

namespace Sys2Proof.Machine

/-- A word that is no instruction is refused under the reason's name. -/
def rejectRefusal : DecodeReject → Refusal
  | .stateCode => .unreachablePosition
  | .headerIndex => .unreachablePosition
  | .trailerIndex => .unreachablePosition
  | .frameRecord => .encoderPrecondition

/-- Decode a word and execute the instruction it is. -/
def runWord (w : OpWord) (s : State) : Answer :=
  match decode w with
  | .ok i => exec i s
  | .error r => .refused (rejectRefusal r)

/-- The word at the core's position for a sample of the event ports. -/
def State.positionWord (s : State) (p : EventPort) : OpWord := .position s.st.code s.idx p

/-- The step of the event level: one event handled (00_scope.md R14; 92_eei_decisions.md D2). -/
def handleEvent (e : Event) (s : State) : Answer := runWord (s.positionWord (eventPort e)) s

/-- A sequence of events, handled in order, up to the first stop. DESIGN CHOICE: this run presumes that
the sink takes every packet, the premise 70_reset_and_hazards.md R259 asks an event-level model to name: it
looks at no back-pressure, and the packets it emits queue in `pktTx` (log entry 15). -/
def runEvents : List Event → State → Answer
  | [], s => .next s
  | e :: es, s =>
    match handleEvent e s with
    | .next t => runEvents es t
    | .fault f => .fault f
    | .refused r => .refused r

/-- The word of a unit call. -/
def callWord : UnitCall → OpWord
  | .mapper p2 => .mapper p2
  | .direction p2 => .direction p2
  | .encode f => .frame f

/-- The decoder's turn: no step while a packet is being sent, else the sampled event is handled
(10_state.md R35). -/
def rxTurn (s : State) : Answer :=
  if s.busy then .next s else runWord (s.positionWord s.sample) s.takeBeat

/-- What one act does. A unit call, like an event, waits for the packet serialiser (log entry 6). -/
def doAct (a : Act) (s : State) : Answer :=
  match a with
  | .rx => rxTurn s
  | .pkt => .next s.takePkt
  | .ctrl => .next s.takeCtrl
  | .ctrlReq enable => runWord (.control enable) s
  | .stopReq level => .next (s.setStop level)
  | .rst => .next s.applyReset
  | .call c => if s.busy then .next s else runWord (callWord c) s

/-- The eager environment, which moves when the agenda names no one (log entry 4). -/
def eagerAct (s : State) : Act := if s.busy then .pkt else if s.ctrlValid then .ctrl else .rx

/-- The act of the coming step. -/
def State.nextAct (s : State) : Act := s.agenda.headD (eagerAct s)

/-- The state in which the act is done: the agenda without it. -/
def State.popAgenda (s : State) : State := { s with agenda := s.agenda.tail }

/-- Place a word where the next step fetches it. -/
def State.placeWord (w : OpWord) (s : State) : State :=
  match w with
  | .position code idx port =>
    match DecState.ofCode code with
    | none => s
    | some st =>
      { s with st := st, idx := idx, source := port.rx :: s.source, stopReq := port.stopReq,
               pktTx := [], agenda := .rx :: s.agenda }
  | .mapper p2 => { s with pktTx := [], agenda := .call (.mapper p2) :: s.agenda }
  | .direction p2 => { s with pktTx := [], agenda := .call (.direction p2) :: s.agenda }
  | .frame f => { s with pktTx := [], agenda := .call (.encode f) :: s.agenda }
  | .control enable => { s with agenda := .ctrlReq enable :: s.agenda }

end Sys2Proof.Machine
end

