-- ==== Sys2Proof/Machine/Step.lean ====
section
/-! DEFINITION. One step of the model: the next act of the agenda, or the eager environment's. -/

namespace Sys2Proof.Machine

/-- One step (00_scope.md R14; 10_state.md R35; log entries 4 and 8). -/
def step (s : State) : Host.Outcome State Fault Refusal := doAct s.nextAct s.popAgenda

/-- The state with a table word placed where the next step fetches it (log entries 9 and 10). -/
def State.withFetchWord (s : State) (nbits w : Nat) : State :=
  match tableWord nbits w with
  | none => s
  | some word => s.placeWord word

end Sys2Proof.Machine
end

