-- ==== Sys2Proof/Machine/Assembler.lean ====
section
/-! DEFINITION. The notation for inputs (30_encoding.md R91, R92): the pseudo-instructions as the byte
sequences and events they expand to. -/

namespace Sys2Proof.Machine

/-- One `BYTE` line per element (R91). -/
def byteEvents (bs : List Byte) : List Event := bs.map .byte

/-- `RAWFRAME app, hi, lo, [p...], fcs, etx`: every field as given (R92). -/
def rawFrame (app hi lo : Byte) (payload : List Byte) (fcs etxByte : Byte) : List Byte :=
  [stx, app, hi, lo] ++ payload ++ [fcs, etxByte]

/-- `LenHi` and `LenLo` of a payload of length `n` (R92). -/
def lenHiOf (n : Nat) : Byte := BitVec.ofNat 8 (n / 256 % 32)
def lenLoOf (n : Nat) : Byte := BitVec.ofNat 8 (n % 256)

/-- `FRAME app, [p...]`: a well-formed frame (R92). -/
def frameBytes (app : Byte) (payload : List Byte) : List Byte :=
  let hi := lenHiOf payload.length
  let lo := lenLoOf payload.length
  rawFrame app hi lo payload (compute ([app, hi, lo] ++ payload)) etx

/-- `TRACE code, ul, [c...]` (R92). -/
def traceFrame (code : BitVec 4) (ul : BitVec 1) (content : List Byte) : List Byte :=
  frameBytes traceAppId
    ([0, 0, fmtByteOf 0 code ul, BitVec.ofNat 8 (content.length / 256 % 256),
      BitVec.ofNat 8 (content.length % 256)] ++ content)

/-- `NOISE [b...]`: by convention no element is `0x02` (R92). -/
abbrev isNoise (bs : List Byte) : Prop := ∀ b ∈ bs, b ≠ stx

/-- `CTRL en`: the 12 output bytes (R92). -/
def ctrlBytes (enable : Bool) : List Byte := buildControl enable

end Sys2Proof.Machine
end

