-- ==== Sys2Proof/Safety.lean ====
section
/-! DEFINITION. What counts as a safe state, and the terms the claims are stated in: the invariants of
41_frame_decoder.md R130, the running checksum of 40_checksum.md R102, the accounting of
60_exceptions.md R225, the port streams of 10_state.md R35, and what an observer can tell apart
(10_state.md R23, R29). -/

namespace Sys2Proof.Machine

/-! ### The invariant of reachable states -/

/-- The position is one that can arise (41_frame_decoder.md R130; 20_memory.md R51). -/
def positionOk (s : State) : Bool :=
  match s.st with
  | .awaitStart => true
  | .readHeader => s.idx ≠ 3
  | .readPayload => payloadPosition s
  | .readTrailer =>
    (s.idx = 0 || s.idx = 1) && s.dlen.toNat ≤ payloadCap && s.cnt.toNat = s.dlen.toNat
  | .halted => true

/-- Counters stay in their width (10_state.md R27). -/
abbrev countersOk (s : State) : Prop :=
  s.ctr.nOk < 2 ^ s.cfg.cntW ∧ s.ctr.nErr < 2 ^ s.cfg.cntW ∧ s.ctr.nCksum < 2 ^ s.cfg.cntW ∧
  s.ctr.nFiltered < 2 ^ s.cfg.cntW ∧ s.ctr.nEncErr < 2 ^ s.cfg.cntW

/-- A unit call of the encoder is made on a record it is defined for (43_gsmtap_encoder.md R185). -/
def actOk : Act → Bool
  | .call (.encode f) => f.wf
  | .call (.mapper _) => true
  | .call (.direction _) => true
  | .rx | .pkt | .ctrl | .ctrlReq _ | .stopReq _ | .rst => true

/-- The invariant of the states a run can reach. -/
abbrev State.inv (s : State) : Prop :=
  s.cfg.ok ∧ countersOk s ∧ (s.haltCause = .none ↔ s.st ≠ .halted) ∧ s.pbuf.wf ∧
  positionOk s = true ∧ ∀ a ∈ s.agenda, actOk a = true

/-! ### The running checksum (40_checksum.md R102, 41_frame_decoder.md R130) -/

/-- The low byte of the declared length. -/
def dlenLo (d : BitVec 13) : Byte := d.extractLsb' 0 8

/-- `csum` is the checksum of the bytes of the frame taken so far, for some raw `LenHi` byte that
agrees with `dlen` (only its reserved bits are not kept). -/
def csumTracks (s : State) : Prop :=
  match s.st with
  | .awaitStart => True
  | .halted => True
  | .readHeader =>
    if s.idx = 0 then True
    else if s.idx = 1 then s.csum = compute [s.appId]
    else ∃ hi : Byte, s.dlen = dlenFromHi hi ∧ s.csum = compute [s.appId, hi]
  | .readPayload =>
    ∃ hi : Byte, ∃ p : List Byte, s.dlen = dlenWithLo (dlenFromHi hi) (dlenLo s.dlen) ∧
      memReadBytes s.pbuf 0 s.cnt.toNat = .ok p ∧
      s.csum = compute ([s.appId, hi, dlenLo s.dlen] ++ p)
  | .readTrailer =>
    ∃ hi : Byte, ∃ p : List Byte, s.dlen = dlenWithLo (dlenFromHi hi) (dlenLo s.dlen) ∧
      memReadBytes s.pbuf 0 s.dlen.toNat = .ok p ∧
      s.csum = compute ([s.appId, hi, dlenLo s.dlen] ++ p)

/-! ### Outputs and counters -/

/-- The outcomes among outputs, in order. -/
def outcomesOf : List Output → List CycleOutcome
  | [] => []
  | .outcome o :: rest => o :: outcomesOf rest
  | .packet _ :: rest => outcomesOf rest

/-- The packets among outputs, in order. -/
def packetsOf : List Output → List (List Byte)
  | [] => []
  | .outcome _ :: rest => packetsOf rest
  | .packet p :: rest => p :: packetsOf rest

/-- Outcomes that count in `n_ok`, `n_err`, `n_cksum`, `n_filtered`, `n_enc_err` (10_state.md R27). -/
def isOk : CycleOutcome → Bool
  | .ok _ => true
  | .oversizeLength | .wrongTerminator | .checksumMismatch | .filteredAppId | .encodeTruncated
  | .ioFatalEndOfStream | .ioFatalFatal | .stopped => false
def isCountedError (o : CycleOutcome) : Bool :=
  o = .oversizeLength || o = .wrongTerminator || o = .checksumMismatch
def isCksum (o : CycleOutcome) : Bool := o = .checksumMismatch
def isFiltered (o : CycleOutcome) : Bool := o = .filteredAppId
def isTruncated (o : CycleOutcome) : Bool := o = .encodeTruncated

/-- Each counter is the number of its outcomes emitted so far, modulo `2 ^ CNT_W` (10_state.md R27,
60_exceptions.md R225). -/
def State.accounted (s : State) : Prop :=
  let os := outcomesOf s.out
  s.ctr.nOk = os.countP isOk % 2 ^ s.cfg.cntW ∧
  s.ctr.nErr = os.countP isCountedError % 2 ^ s.cfg.cntW ∧
  s.ctr.nCksum = os.countP isCksum % 2 ^ s.cfg.cntW ∧
  s.ctr.nFiltered = os.countP isFiltered % 2 ^ s.cfg.cntW ∧
  s.ctr.nEncErr = os.countP isTruncated % 2 ^ s.cfg.cntW

/-- What the sink has taken, followed by what is still offered, is every packet emitted, byte by byte
in order, each with its last flag (10_state.md R34, R35; 20_memory.md R63). -/
def State.streamInOrder (s : State) : Prop :=
  s.pktLog ++ s.pktTx = (packetsOf s.out).flatMap beats

/-- What one event may emit (10_state.md R32): nothing; one outcome of an error, a filtered frame or a
halt; `Ok` and a packet; `Ok` and `EncodeTruncated`. -/
def outputShape (l : List Output) : Prop :=
  l = [] ∨ (∃ o, l = [.outcome o] ∧ isOk o = false ∧ isTruncated o = false) ∨
  (∃ f p, l = [.outcome (.ok f), .packet p]) ∨
  (∃ f, l = [.outcome (.ok f), .outcome .encodeTruncated])

/-! ### What later outputs can depend on (10_state.md R23, R29) -/

/-- Two memories read alike below `n`. -/
def sameBelow (m m' : Memory) (n : Nat) : Prop := ∀ k < n, memByte m k = memByte m' k

/-- The registers and buffer bytes that the frame in progress has written agree. -/
def sameLive (s t : State) : Prop :=
  match s.st with
  | .awaitStart => True
  | .halted => True
  | .readHeader =>
    (s.idx ≠ 0 → s.appId = t.appId ∧ s.csum = t.csum) ∧
    (s.idx ≠ 0 → s.idx ≠ 1 → s.dlen = t.dlen)
  | .readPayload =>
    s.appId = t.appId ∧ s.csum = t.csum ∧ s.dlen = t.dlen ∧ s.cnt = t.cnt ∧
    sameBelow s.pbuf t.pbuf s.cnt.toNat
  | .readTrailer =>
    s.appId = t.appId ∧ s.csum = t.csum ∧ s.dlen = t.dlen ∧
    (s.idx ≠ 0 → s.fcsRx = t.fcsRx) ∧ sameBelow s.pbuf t.pbuf s.dlen.toNat

/-- Two states that differ at most in data-path registers and buffer bytes no rule has written in the
frame in progress, which are the state no port shows (10_state.md R29): everything else, the position
included, is equal. -/
def sameVisible (s t : State) : Prop :=
  s.cfg = t.cfg ∧ s.st = t.st ∧ s.idx = t.idx ∧ s.haltCause = t.haltCause ∧ s.ctr = t.ctr ∧
  s.pktTx = t.pktTx ∧ s.ctrlTx = t.ctrlTx ∧ s.mapOut = t.mapOut ∧ s.dirOut = t.dirOut ∧ s.out = t.out ∧
  s.pktLog = t.pktLog ∧ s.ctrlLog = t.ctrlLog ∧ s.source = t.source ∧ s.stopReq = t.stopReq ∧
  s.agenda = t.agenda ∧ sameLive s t

/-! ### Rows and events -/

/-- The event a row of the first group handles (30_encoding.md R90). -/
def eventOf : Instr → Option Event
  | .asSkip b | .rhAppid b | .rhLenhi b | .rhLenlo b | .rpData b | .rtFcs b | .rtBadetx b =>
    some (.byte b)
  | .asStx => some (.byte stx)
  | .rtEtx => some (.byte etx)
  | .evRetry => some .retry
  | .evEos => some .endOfStream
  | .evFatal => some .fatal
  | .evStop => some .stop
  | .haltIgn e => some e
  | .map0 _ _ | .map1 _ _ | .map2 _ _ | .map3 _ _ | .map4 _ _ | .map5 _ _ | .map6 _ _
  | .map7 _ _ => none
  | .map8 _ _ | .map9 _ _ | .map10 _ _ | .map11 _ _ | .map12 _ _ | .map13 _ _ | .map14 _ _
  | .map15 _ _ => none
  | .dirDl _ | .dirUl _ | .gtEnc _ | .crEn | .crDis => none

/-- The positions to which the table of 41_frame_decoder.md R112 gives a row. -/
def hasRow (st : DecState) (idx : BitVec 2) : Bool :=
  match st with
  | .awaitStart => true
  | .readHeader => idx ≠ 3
  | .readPayload => true
  | .readTrailer => idx = 0 || idx = 1
  | .halted => true

/-! ### What a whole frame is reported as -/

/-- The outputs of a dispatched record: the outcome and the packet, or the outcome and
`EncodeTruncated` (41_frame_decoder.md R124). -/
def dispatchOutputs (p : Params) (f : Frame) : List Output :=
  match encodePacket p f.payload with
  | some packet => [.outcome (.ok f), .packet packet]
  | none => [.outcome (.ok f), .outcome .encodeTruncated]

/-- The one report of a frame whose length was accepted, in the order of 60_exceptions.md R218:
terminator, checksum, channel, dispatch. -/
def frameOutputs (p : Params) (app : Byte) (payload : List Byte) (computed fcs etxByte : Byte) :
    List Output :=
  if etxByte ≠ etx then [.outcome .wrongTerminator]
  else if computed ≠ fcs then [.outcome .checksumMismatch]
  else if app ≠ traceAppId then [.outcome .filteredAppId]
  else dispatchOutputs p ⟨app, payload, fcs⟩

/-! ### Runs -/

/-- `n` steps of the machine. -/
def runSteps (n : Nat) (s : State) : Answer := Sys2Proof.core.run n s

/-- The part of a state that the Frame Decoder owns (10_state.md R36). -/
def decoderPart (s : State) : DecState × BitVec 2 × HaltCause × Byte × BitVec 13 × Byte × Byte × Byte
    × Counters × Memory :=
  (s.st, s.idx, s.haltCause, s.appId, s.dlen, s.csum, s.cnt, s.fcsRx, s.ctr, s.pbuf)

end Sys2Proof.Machine
end

