-- ==== Sys2Proof/Certificates/Slice0/Obligations.lean ====
section
/-! DEFINITION. The statements for the provers. Each docstring names the rule of spec/ it formalises;
where a statement rests on a choice of the model it names the log entry. -/

open Sys2Proof Sys2Proof.Machine

/-! ### Frame Decoder, operation by operation: the whole next state, so the frame as well -/

/-- AS.SKIP and AS.STX (R113, R114): in `AwaitStart` a byte other than `0x02` changes nothing and emits
nothing; `0x02` opens the header and changes nothing else. -/
def Obligations.AwaitStartSkipsNoiseAndOpensHeader : Prop :=
  ∀ s : State, s.st = .awaitStart →
    (∀ b : Byte, b ≠ 0x02 → exec (.asSkip b) s = .next s) ∧
    exec .asStx s = .next { s with st := .readHeader, idx := 0 }

/-- RH.APPID and RH.LENHI (R115, R116): the AppID byte seeds the checksum; of `LenHi` five bits enter
the length and all eight the checksum. -/
def Obligations.HeaderBytesSeedChecksumAndLength : Prop :=
  ∀ (s : State) (b : Byte), s.st = .readHeader →
    (s.idx = 0 → exec (.rhAppid b) s = .next { s with appId := b, csum := b, idx := 1 }) ∧
    (s.idx = 1 → exec (.rhLenhi b) s =
      .next { s with dlen := BitVec.ofNat 13 (b.toNat % 32 * 256), csum := s.csum ^^^ b, idx := 2 })

/-- RH.LENLO (R117): the declared length is completed, four registers are written in every branch, and
the length guard chooses between `OversizeLength`, the trailer and the payload. -/
def Obligations.LengthGuardChoosesErrorTrailerOrPayload : Prop :=
  ∀ (s : State) (b : Byte), s.st = .readHeader → s.idx = 2 →
    let d := s.dlen.toNat / 256 * 256 + b.toNat
    let w := { s with dlen := BitVec.ofNat 13 d, csum := s.csum ^^^ b, cnt := 0, idx := 0 }
    exec (.rhLenlo b) s = .next
      (if 255 < d then
        { w with
          st := .awaitStart
          ctr := { s.ctr with nErr := (s.ctr.nErr + 1) % 2 ^ s.cfg.cntW }
          out := s.out ++ [.outcome .oversizeLength] }
      else if d = 0 then { w with st := .readTrailer }
      else { w with st := .readPayload })

/-- RP.DATA (R119): one byte stored at index `cnt` and nowhere else, folded into the checksum, counted;
the last one opens the trailer. Every other field is unchanged. -/
def Obligations.PayloadByteIsStoredAtCountAndFolded : Prop :=
  ∀ (s : State) (b : Byte), s.st = .readPayload → s.cnt.toNat < s.dlen.toNat → s.dlen.toNat ≤ 255 →
    ∃ m : Memory,
      exec (.rpData b) s = .next
        { s with
          pbuf := m
          csum := s.csum ^^^ b
          cnt := BitVec.ofNat 8 (s.cnt.toNat + 1)
          st := if s.cnt.toNat + 1 = s.dlen.toNat then .readTrailer else .readPayload
          idx := if s.cnt.toNat + 1 = s.dlen.toNat then 0 else s.idx } ∧
      ∀ a : Nat, memRead m a = if a = s.cnt.toNat then .ok b else memRead s.pbuf a

/-- RT.FCS and RT.BADETX (R120, R121): the FCS is taken and not folded; a wrong terminator is reported
whatever the checksum is, and the checksum is not looked at. -/
def Obligations.TrailerTakesFcsAndReportsBadTerminator : Prop :=
  ∀ (s : State) (b : Byte), s.st = .readTrailer →
    (s.idx = 0 → exec (.rtFcs b) s = .next { s with fcsRx := b, idx := 1 }) ∧
    (s.idx = 1 → b ≠ 0x03 → exec (.rtBadetx b) s = .next
      { s with
        idx := 0
        st := .awaitStart
        ctr := { s.ctr with nErr := (s.ctr.nErr + 1) % 2 ^ s.cfg.cntW }
        out := s.out ++ [.outcome .wrongTerminator] })

/-- RT.ETX up to the channel guard (R213, R123): a checksum that differs is an error counted twice over,
whatever the AppID; a good frame on another channel is counted as filtered. -/
def Obligations.EtxReportsMismatchThenFiltersChannel : Prop :=
  ∀ s : State, s.st = .readTrailer → s.idx = 1 →
    (s.csum ≠ s.fcsRx → exec .rtEtx s = .next
      { s with
        idx := 0
        st := .awaitStart
        ctr := { s.ctr with
          nErr := (s.ctr.nErr + 1) % 2 ^ s.cfg.cntW
          nCksum := (s.ctr.nCksum + 1) % 2 ^ s.cfg.cntW }
        out := s.out ++ [.outcome .checksumMismatch] }) ∧
    (s.csum = s.fcsRx → s.appId ≠ 0x00 → exec .rtEtx s = .next
      { s with
        idx := 0
        st := .awaitStart
        ctr := { s.ctr with nFiltered := (s.ctr.nFiltered + 1) % 2 ^ s.cfg.cntW }
        out := s.out ++ [.outcome .filteredAppId] })

/-- RT.ETX, dispatch (R124): a good trace frame whose payload `p` the buffer holds is counted and
reported, and then either its packet is emitted or `EncodeTruncated` is counted and reported. The
fields `mapOut` and `dirOut` are the model's own (log entry 6). -/
def Obligations.DispatchReportsFrameThenPacketOrTruncation : Prop :=
  ∀ (s : State) (p : List Byte), s.st = .readTrailer → s.idx = 1 → s.csum = s.fcsRx →
    s.appId = 0x00 → p.length = s.dlen.toNat →
    (∀ i (h : i < p.length), memRead s.pbuf i = .ok p[i]) →
    let f : Frame := ⟨0x00, p, s.fcsRx⟩
    (∀ packet, encodePacket s.cfg p = some packet → exec .rtEtx s = .next
      { s with
        idx := 0
        st := .awaitStart
        ctr := { s.ctr with nOk := (s.ctr.nOk + 1) % 2 ^ s.cfg.cntW }
        out := s.out ++ [.outcome (.ok f), .packet packet]
        pktTx := s.pktTx ++ beats packet
        mapOut := mapCode s.cfg (formatCode (payloadByte p 2))
        dirOut := isUplink (payloadByte p 2) }) ∧
    (encodePacket s.cfg p = none → exec .rtEtx s = .next
      { s with
        idx := 0
        st := .awaitStart
        ctr := { s.ctr with
          nOk := (s.ctr.nOk + 1) % 2 ^ s.cfg.cntW
          nEncErr := (s.ctr.nEncErr + 1) % 2 ^ s.cfg.cntW }
        out := s.out ++ [.outcome (.ok f), .outcome .encodeTruncated] })

/-- EV.RETRY, EV.EOS, EV.FATAL, EV.STOP (R125, R126, R127) in any state but `Halted`: nothing, or the
halt with its cause and its one outcome, and no counter. -/
def Obligations.EventsWithoutByteDoNothingOrHalt : Prop :=
  ∀ s : State, s.st ≠ .halted →
    exec .evRetry s = .next s ∧
    exec .evEos s = .next
      { s with st := .halted, haltCause := .endOfStream,
               out := s.out ++ [.outcome .ioFatalEndOfStream] } ∧
    exec .evFatal s = .next
      { s with st := .halted, haltCause := .fatal, out := s.out ++ [.outcome .ioFatalFatal] } ∧
    exec .evStop s = .next
      { s with st := .halted, haltCause := .stopped, out := s.out ++ [.outcome .stopped] }

/-- HALT.IGN (R128): in `Halted` every event, decoded and executed, changes nothing and emits nothing. -/
def Obligations.HaltedCoreIgnoresEveryEvent : Prop :=
  ∀ (s : State) (e : Event), s.st = .halted →
    exec (.haltIgn e) s = .next s ∧ handleEvent e s = .next s

/-! ### Mapper and direction -/

/-- MAP.0 to MAP.15 (R152; `mapInstr c` is the row MAP.c): the lookup of code `c` answers whether it is a
burst, true for 0 and 2 only, and the target the table has at `c`; the ignored bits play no part and
nothing else changes. That the answer stands in `mapOut` is the model's choice (log entry 6). -/
def Obligations.MapperLookupAnswersBurstAndTarget : Prop :=
  ∀ (s : State) (c : BitVec 4) (ign : BitVec 3) (ul : BitVec 1),
    exec (mapInstr c ign ul) s =
      .next { s with mapOut := ⟨decide (c.toNat = 0 ∨ c.toNat = 2), s.cfg.lut.getD c.toNat .unknown⟩ }

/-- The facts the document fixes of every table (R153): codes 6, 13, 14, 15 are unknown, code 3 is BCCH,
the burst targets stand at codes 0 and 2 only, so the burst flag and the burst targets agree. That the answer
stands in `mapOut` is the model's choice (log entry 6). -/
def Obligations.AdmissibleTableFixesUnknownBcchAndBursts : Prop :=
  ∀ (s t : State) (c : BitVec 4) (ign : BitVec 3) (ul : BitVec 1), s.cfg.lutOk →
    exec (mapInstr c ign ul) s = .next t →
    (c.toNat = 6 ∨ 13 ≤ c.toNat → t.mapOut = ⟨false, .unknown⟩) ∧
    (c.toNat = 3 → t.mapOut = ⟨false, .bcch⟩) ∧
    (t.mapOut.isBurst = true ↔
      t.mapOut.target = .burstNormal ∨ t.mapOut.target = .accessBurst)

/-- The default table row by row (42_channel_mapper.md R154 to R169), with the `type` and `sub_type`
bytes of the default parameters. The entries marked default are the spec's decision D14 and the numbers
its general knowledge (log entry 3). -/
def Obligations.DefaultTableTargetsAndBytes : Prop :=
  (List.range 16).map (fun c =>
      let m := mapCode defaultParams (BitVec.ofNat 4 c)
      (m, frameTypeOf defaultParams m.isBurst, subtypeOf defaultParams.subtypeCode m.target)) =
    [(⟨true, .burstNormal⟩, 0x03, 0x06), (⟨false, .rach⟩, 0x01, 0x03),
     (⟨true, .accessBurst⟩, 0x03, 0x08), (⟨false, .bcch⟩, 0x01, 0x01),
     (⟨false, .pch⟩, 0x01, 0x05), (⟨false, .sdcch⟩, 0x01, 0x06),
     (⟨false, .unknown⟩, 0x01, 0x00), (⟨false, .sdcch⟩, 0x01, 0x06)] ++
    [(⟨false, .accSdcch⟩, 0x01, 0x07), (⟨false, .tchF⟩, 0x01, 0x09),
     (⟨false, .tchH⟩, 0x01, 0x0A), (⟨false, .ccch⟩, 0x01, 0x02),
     (⟨false, .agch⟩, 0x01, 0x04), (⟨false, .unknown⟩, 0x01, 0x00),
     (⟨false, .unknown⟩, 0x01, 0x00), (⟨false, .unknown⟩, 0x01, 0x00)]

/-- DIR.DL and DIR.UL (R151): bit 0 of payload byte 2, and nothing else of it, is the direction. That the
answer stands in `dirOut` is the model's choice (log entry 6). -/
def Obligations.DirectionIsBitZeroOfFormatByte : Prop :=
  ∀ (s : State) (p2 : Byte) (hi : BitVec 7),
    exec (.dirDl hi) s = .next { s with dirOut := false } ∧
    exec (.dirUl hi) s = .next { s with dirOut := true } ∧
    decode (.direction p2) =
      .ok (if p2.toNat % 2 = 1 then .dirUl (BitVec.ofNat 7 (p2.toNat / 2))
        else .dirDl (BitVec.ofNat 7 (p2.toNat / 2)))

/-! ### Encoder -/

/-- GT.ENC (R180): a payload shorter than 5 bytes or than `5 + content_length` counts and reports
`EncodeTruncated` and emits no packet; any other emits the header followed by exactly the trace content.
The fields `mapOut` and `dirOut` are the model's own (log entry 6). -/
def Obligations.EncoderEmitsHeaderAndContentOrTruncates : Prop :=
  ∀ (s : State) (f : Frame),
    let n := f.payload.length
    let b := fun i => f.payload.getD i 0
    let len := (b 3).toNat * 256 + (b 4).toNat
    let m := mapCode s.cfg (formatCode (b 2))
    let packet := buildHeader s.cfg m (isUplink (b 2)) ++ (f.payload.drop 5).take len
    (n < 5 ∨ n < 5 + len → exec (.gtEnc f) s = .next
      { s with
        ctr := { s.ctr with nEncErr := (s.ctr.nEncErr + 1) % 2 ^ s.cfg.cntW }
        out := s.out ++ [.outcome .encodeTruncated] }) ∧
    (5 + len ≤ n → exec (.gtEnc f) s = .next
      { s with
        mapOut := m
        dirOut := isUplink (b 2)
        out := s.out ++ [.packet packet]
        pktTx := s.pktTx ++ beats packet })

/-- The header under every layout whose fields lie in the header and do not overlap (30_encoding.md R80,
R81): its length, each field's byte, and zero at every other offset. -/
def Obligations.HeaderHoldsEachFieldAndZeroElsewhere : Prop :=
  ∀ (p : Params) (m : MapResult) (ul : Bool), p.layoutOk →
    let h := buildHeader p m ul
    let l := p.layout
    h.length = 4 * p.hdrWords.toNat ∧
    h[l.version]? = some p.version ∧
    h[l.hdrLen]? = some p.hdrWords ∧
    h[l.frameType]? = some (if m.isBurst then p.typeUmBurst else p.typeUm) ∧
    h[l.arfcn]? = some (if ul then BitVec.ofNat 8 (p.arfcnUplink.toNat / 256) else 0) ∧
    h[l.arfcn + 1]? = some (if ul then BitVec.ofNat 8 (p.arfcnUplink.toNat % 256) else 0) ∧
    h[l.subType]? = some (subtypeOf p.subtypeCode m.target) ∧
    ∀ o < 4 * p.hdrWords.toNat,
      o ∉ [l.version, l.hdrLen, l.frameType, l.arfcn, l.arfcn + 1, l.subType] → h[o]? = some 0

/-- The header in the default layout, byte by byte (43_gsmtap_encoder.md R183; the layout is general
knowledge, log entry 3). -/
def Obligations.DefaultLayoutHeaderBytes : Prop :=
  ∀ (p : Params) (m : MapResult) (ul : Bool), p.layout = defaultLayout → p.hdrWords = 4 →
    buildHeader p m ul =
      [p.version, 4, frameTypeOf p m.isBurst, 0, hiByte (arfcnOf p ul), loByte (arfcnOf p ul),
       0, 0] ++ [0, 0, 0, 0, subtypeOf p.subtypeCode m.target, 0, 0, 0]

/-- The header depends on bits 4..0 of payload byte 2 alone (43_gsmtap_encoder.md R183, 30_encoding.md
R77): two payloads that agree there and both encode have packets with the same header, and after it
their own trace content. -/
def Obligations.HeaderDependsOnFormatBitsOnly : Prop :=
  ∀ (cfg : Params) (p q pk qk : List Byte),
    encodePacket cfg p = some pk → encodePacket cfg q = some qk →
    (payloadByte p 2).toNat % 32 = (payloadByte q 2).toNat % 32 →
    let h := 4 * cfg.hdrWords.toNat
    pk.take h = qk.take h ∧ pk.drop h = traceContent p ∧ qk.drop h = traceContent q

/-- The length of a packet (43_gsmtap_encoder.md R187, 30_encoding.md R78): header and content length,
the content at most 250 bytes; a content length above 250 never encodes. -/
def Obligations.PacketLengthIsHeaderPlusContent : Prop :=
  ∀ (cfg : Params) (p : List Byte), p.length ≤ 255 →
    (∀ pk, encodePacket cfg p = some pk →
      pk.length = 4 * cfg.hdrWords.toNat + contentLength p ∧ contentLength p + 5 ≤ p.length) ∧
    (250 < contentLength p → encodePacket cfg p = none)

/-- The document's worked example with the default parameters (43_gsmtap_encoder.md R188; log entry 3). -/
def Obligations.WorkedExampleEncodesToBcchPacket : Prop :=
  encodePacket defaultParams [0x03, 0x00, 0x07, 0x00, 0x02, 0xAA, 0xBB] =
    some ([0x02, 0x04, 0x01, 0x00, 0x40, 0x00, 0x00, 0x00, 0x00, 0x00, 0x00, 0x00] ++
      [0x01, 0x00, 0x00, 0x00, 0xAA, 0xBB])

/-! ### Control requests -/

/-- CR.EN and CR.DIS (R201, R36): with the serialiser idle the twelve bytes are offered, index 0 first;
while a request is being sent the new one is ignored. No other field changes. -/
def Obligations.ControlRequestOffersTwelveBytesOrIsIgnored : Prop :=
  ∀ s : State,
    (s.ctrlTx = [] →
      exec .crEn s = .next
        { s with ctrlTx := beats [2, 0, 0, 6, 0, 31, 0, 0, 0, 63, 38, 3] } ∧
      exec .crDis s = .next
        { s with ctrlTx := beats [2, 0, 0, 6, 0, 31, 0, 0, 0, 0, 25, 3] }) ∧
    (s.ctrlTx ≠ [] → exec .crEn s = .next s ∧ exec .crDis s = .next s)

/-- Both control requests are well-formed serial frames with the checksum of their own bytes (R203). -/
def Obligations.ControlRequestsAreWellFormedFrames : Prop :=
  buildControl true = frameBytes 0x00 [0x00, 0x1F, 0x00, 0x00, 0x00, 0x3F] ∧
  buildControl false = frameBytes 0x00 [0x00, 0x1F, 0x00, 0x00, 0x00, 0x00]

/-- Loop-back (44_control_request.md R206): fed to the decoder, a control request is a good trace frame
and encodes to the bare header (default parameters, log entry 3). The run of events presumes that the sink
takes every packet, the premise of R259 and R254 (log entry 15). -/
def Obligations.ControlRequestLoopsBackAsTraceFrame : Prop :=
  ∀ (s : State) (enable : Bool), s.st = .awaitStart → s.cfg = defaultParams →
    ∃ t, runEvents (byteEvents (buildControl enable)) s = .next t ∧ t.st = .awaitStart ∧
      t.out = s.out ++
        [.outcome (.ok ⟨0x00, [0x00, 0x1F, 0x00, 0x00, 0x00, if enable then 0x3F else 0x00],
          if enable then 0x26 else 0x19⟩),
         .packet [0x02, 0x04, 0x03, 0x00, 0x00, 0x00, 0x00, 0x00, 0x00, 0x00, 0x00, 0x00, 0x06,
           0x00, 0x00, 0x00]]

/-- The control interface and the decoder share no state (10_state.md R36): a control act changes nothing
but the control serialiser and its record, and an act that is neither control nor reset leaves those
alone. -/
def Obligations.ControlAndDecoderShareNoState : Prop :=
  ∀ s t : State, step s = .next t →
    ((s.nextAct = .ctrl ∨ ∃ e, s.nextAct = .ctrlReq e) →
      t = { s with ctrlTx := t.ctrlTx, ctrlLog := t.ctrlLog, agenda := s.agenda.tail }) ∧
    (s.nextAct ≠ .ctrl → (∀ e, s.nextAct ≠ .ctrlReq e) → s.nextAct ≠ .rst →
      t.ctrlTx = s.ctrlTx ∧ t.ctrlLog = s.ctrlLog)

/-! ### Checksum Engine -/

/-- `compute` (R100): zero on nothing, one more byte folds by exclusive-or, the order of the bytes does not
matter, a repeated byte cancels, the rule's worked example; and concatenation is exclusive-or of the parts
(R104). -/
def Obligations.ChecksumIsOrderFreeXorFold : Prop :=
  compute [] = 0x00 ∧
  (∀ (bs : List Byte) (b : Byte), compute (bs ++ [b]) = compute bs ^^^ b) ∧
  (∀ s t : List Byte, compute (s ++ t) = compute s ^^^ compute t) ∧
  (∀ s t : List Byte, s.Perm t → compute s = compute t) ∧
  (∀ b : Byte, compute [b] = b ∧ compute [b, b] = 0x00) ∧
  compute [0x00, 0x00, 0x06, 0x00, 0x1F, 0x00, 0x00, 0x00, 0x3F] = 0x26

/-- What the checksum detects and what it misses (40_checksum.md R106): one changed byte always changes
it; the same mask in two bytes never does. -/
def Obligations.ChecksumDetectsOneChangeMissesPairs : Prop :=
  ∀ (bs : List Byte) (i j : Nat) (mask : Byte), i < bs.length →
    let change := fun (l : List Byte) (k : Nat) => l.set k (l.getD k 0 ^^^ mask)
    compute (change bs i) = compute bs ^^^ mask ∧
    (j < bs.length → i ≠ j → compute (change (change bs i) j) = compute bs)

/-! ### Whole frames -/

/-- Every whole frame whose length is accepted (60_exceptions.md R218, 41_frame_decoder.md R131), with any
reserved bits in `LenHi`, any FCS and any last byte, from any state in `AwaitStart`: after exactly
`length + 6` bytes the core is in `AwaitStart` again and has reported the frame once, by the fixed
priority of terminator, checksum, channel, dispatch.
The run of events presumes that the sink takes every packet, the premise of R259 and R254 (log entry 15). -/
def Obligations.WholeFrameIsReportedOnceByPriority : Prop :=
  ∀ (s : State) (app hi fcs etxByte : Byte) (p : List Byte), s.st = .awaitStart → p.length ≤ 255 →
    hi.toNat % 32 = 0 →
    let lo : Byte := BitVec.ofNat 8 p.length
    ∃ t, runEvents (byteEvents (rawFrame app hi lo p fcs etxByte)) s = .next t ∧
      t.st = .awaitStart ∧ t.haltCause = s.haltCause ∧ t.ctrlTx = s.ctrlTx ∧
      t.out = s.out ++ frameOutputs s.cfg app p (compute ([app, hi, lo] ++ p)) fcs etxByte

/-- The three properties of R132: (a) a well-formed trace frame of any payload up to 255 bytes yields
`Ok` with that payload; (b) noise before a frame is discarded without a trace; (c) a declared length
above 255 yields `OversizeLength` at the fourth byte, nothing being stored.
The run of events presumes that the sink takes every packet, the premise of R259 and R254 (log entry 15). -/
def Obligations.DecoderRoundTripsResynchronisesAndRefusesOversize : Prop :=
  (∀ (s : State) (p : List Byte), s.st = .awaitStart → p.length ≤ 255 →
    ∃ t rest, runEvents (byteEvents (frameBytes 0x00 p)) s = .next t ∧ t.st = .awaitStart ∧
      t.ctr.nOk = (s.ctr.nOk + 1) % 2 ^ s.cfg.cntW ∧ t.ctr.nErr = s.ctr.nErr ∧
      t.out = s.out ++
        .outcome (.ok ⟨0x00, p, compute ([0x00, 0x00, BitVec.ofNat 8 p.length] ++ p)⟩) :: rest) ∧
  (∀ (s : State) (noise rest : List Byte), s.st = .awaitStart → (∀ b ∈ noise, b ≠ 0x02) →
    runEvents (byteEvents (noise ++ rest)) s = runEvents (byteEvents rest) s) ∧
  (∀ (s : State) (app hi lo : Byte), s.st = .awaitStart → 255 < hi.toNat % 32 * 256 + lo.toNat →
    ∃ t, runEvents (byteEvents [0x02, app, hi, lo]) s = .next t ∧ t.st = .awaitStart ∧
      t.pbuf = s.pbuf ∧ t.out = s.out ++ [.outcome .oversizeLength] ∧
      t.ctr = { s.ctr with nErr := (s.ctr.nErr + 1) % 2 ^ s.cfg.cntW })

/-- End to end (30_encoding.md R92 TRACE, 43_gsmtap_encoder.md R180): the frame of any format code,
direction and content up to 250 bytes leaves as one packet: the header of that code and direction, then
the content unchanged.
The run of events presumes that the sink takes every packet, the premise of R259 and R254 (log entry 15). -/
def Obligations.TraceContentLeavesUnchangedInOnePacket : Prop :=
  ∀ (s : State) (code : BitVec 4) (ul : BitVec 1) (content : List Byte), s.st = .awaitStart →
    content.length ≤ 250 →
    ∃ t f, runEvents (byteEvents (traceFrame code ul content)) s = .next t ∧ t.st = .awaitStart ∧
      t.out = s.out ++ [.outcome (.ok f),
        .packet (buildHeader s.cfg (mapCode s.cfg code) (decide (ul = 1)) ++ content)]

/-- `Retry` may fall anywhere, any number of times (41_frame_decoder.md R125, U16): it changes no run
from a position that has a row. At the others, which cannot arise, every event is refused
(`Obligations.UnreachablePositionsStopByName`).
The run of events presumes that the sink takes every packet, the premise of R259 and R254 (log entry 15). -/
def Obligations.RetryAnywhereChangesNoRun : Prop :=
  ∀ (es : List Event) (s : State), hasRow s.st s.idx = true →
    runEvents es s = runEvents (es.filter (· ≠ .retry)) s

/-- What one event may emit (10_state.md R32): nothing, one outcome that is neither `Ok` nor
`EncodeTruncated`, `Ok` and a packet, or `Ok` and `EncodeTruncated`; what was emitted before stands. -/
def Obligations.EventEmitsOneOfFourShapes : Prop :=
  ∀ (e : Event) (s t : State), handleEvent e s = .next t →
    ∃ l, t.out = s.out ++ l ∧ outputShape l

/-! ### Decode and step -/

/-- Decode and encode agree on every well-formed operation, every operand at every value (30_encoding.md
R90). -/
def Obligations.DecodeOfEncodeIsTheInstruction : Prop :=
  ∀ i : Instr, i.wf = true → decode (encode i) = .ok i

/-- The decode of the first group is complete and without overlap (30_encoding.md R90, 41_frame_decoder.md
R112): at every position that has a row, an event decodes to a well-formed operation that handles that
event and that exec does not turn away as not selected. That exec refuses every other operation that
handles the same event, as `notSelected`, is the model's way to say that no second row applies (log entry
7). -/
def Obligations.ExactlyOneOperationHandlesAnEvent : Prop :=
  ∀ (s : State) (e : Event), hasRow s.st s.idx = true →
    ∃ i : Instr, decode (s.positionWord (eventPort e)) = .ok i ∧ i.wf = true ∧ eventOf i = some e ∧
      exec i s ≠ .refused .notSelected ∧
      ∀ j : Instr, eventOf j = some e → j ≠ i → exec j s = .refused .notSelected

/-- Words written out from 30_encoding.md R77, R90 and 10_state.md R26, R34 decode to the operation they
stand for: `st` code, index, stop level, valid, kind, data; payload byte 2 as a bit string. -/
def Obligations.WordsWrittenFromTheTablesDecode : Prop :=
  decode (.position 0b000 0b00 ⟨false, ⟨true, 0b00, 0b00000010⟩⟩) = .ok .asStx ∧
  decode (.position 0b001 0b01 ⟨false, ⟨true, 0b00, 0b11100001⟩⟩) = .ok (.rhLenhi 0xE1) ∧
  decode (.position 0b011 0b01 ⟨false, ⟨true, 0b00, 0b00000011⟩⟩) = .ok .rtEtx ∧
  decode (.position 0b010 0b00 ⟨false, ⟨true, 0b11, 0b00000000⟩⟩) = .ok .evFatal ∧
  decode (.position 0b010 0b00 ⟨true, ⟨true, 0b00, 0b00000010⟩⟩) = .ok .evStop ∧
  decode (.mapper 0b10100111) = .ok (.map3 0b101 1) ∧
  decode (.direction 0b00000111) = .ok (.dirUl 0b0000011) ∧
  decode (.position 0b101 0b00 ⟨false, ⟨true, 0b00, 0b00000010⟩⟩) = .error .stateCode

/-- Positions that cannot arise are refused, not guessed (41_frame_decoder.md R112, U10): codes 5 to 7, any
event at header index 3 or trailer index 2 or 3, a payload byte beyond the declared length; and, which is
the model's reading (log entry 7), a payload byte under a declared length above 255.
Dispatch of a payload longer than the buffer faults (20_memory.md R50), and a record the encoder is not
defined for is rejected (43_gsmtap_encoder.md R185; log entry 13). -/
def Obligations.UnreachablePositionsStopByName : Prop :=
  (∀ (c : BitVec 3) (idx : BitVec 2) (p : EventPort), 5 ≤ c.toNat →
    decode (.position c idx p) = .error .stateCode) ∧
  (∀ (s : State) (e : Event), hasRow s.st s.idx = false →
    handleEvent e s = .refused .unreachablePosition) ∧
  (∀ (s : State) (b : Byte), s.st = .readPayload →
    s.dlen.toNat ≤ s.cnt.toNat ∨ 255 < s.dlen.toNat →
    handleEvent (.byte b) s = .refused .unreachablePosition) ∧
  (∀ s : State, s.st = .readTrailer → s.idx = 1 → s.csum = s.fcsRx → s.appId = 0x00 →
    255 < s.dlen.toNat → exec .rtEtx s = .fault .pbufRange) ∧
  (∀ f : Frame, f.appId ≠ 0x00 ∨ 255 < f.payload.length →
    decode (.frame f) = .error .frameRecord)

/-- A step runs the decoded instruction (00_scope.md R14, 10_state.md R35): in the decoder's turn with no
packet being sent, the operation that the sampled ports select at the core's position; the agenda loses
its head and the source its beat where `rx_ready` is high. A unit call or control request runs its own. The model's
choices: that a unit can be called on its own (log entry 6); that a presented beat which is not valid leaves
the source like any other, and that a halted turn runs HALT.IGN on the beat without taking it (log entry
8). -/
def Obligations.StepExecutesTheDecodedInstruction : Prop :=
  ∀ (s : State) (i : Instr),
    (s.nextAct = .rx → s.pktTx = [] →
      decode (.position s.st.code s.idx ⟨s.stopReq, s.source.headD .idle⟩) = .ok i →
      step s = exec i
        { s with
          agenda := s.agenda.tail
          source := if s.st ≠ .halted ∧ s.stopReq = false then s.source.tail else s.source }) ∧
    (∀ c, s.nextAct = .call c → s.pktTx = [] → decode (callWord c) = .ok i →
      step s = exec i { s with agenda := s.agenda.tail }) ∧
    (∀ enable, s.nextAct = .ctrlReq enable → decode (.control enable) = .ok i →
      step s = exec i { s with agenda := s.agenda.tail })

/-- While a packet is being sent the decoder's turn is no step, and, at a position that has a row, the stop
request wins over a presented beat, which stays with the source (10_state.md R35). -/
def Obligations.BusyDefersAndStopWinsOverBeat : Prop :=
  ∀ s : State, s.nextAct = .rx →
    (s.pktTx ≠ [] → step s = .next { s with agenda := s.agenda.tail }) ∧
    (s.pktTx = [] → s.stopReq = true → s.st ≠ .halted → hasRow s.st s.idx = true →
      step s = .next
      { s with
        agenda := s.agenda.tail
        st := .halted
        haltCause := .stopped
        out := s.out ++ [.outcome .stopped] })

/-- The eager environment takes a pending packet completely, byte by byte, in as many steps as it has
bytes (10_state.md R35, 70_reset_and_hazards.md R254; the environment is log entry 4). -/
def Obligations.EagerSinkDrainsThePacket : Prop :=
  ∀ s : State, s.agenda = [] →
    runSteps s.pktTx.length s = .next { s with pktTx := [], pktLog := s.pktLog ++ s.pktTx }

/-! ### Reset -/

/-- Reset (70_reset_and_hazards.md R250, 10_state.md R37): from any state, in one step, the control
registers, the counters and the serialisers are at their reset values; the buffer is not cleared
(20_memory.md R53); the parameters and what has already left the core are not touched (log entry 11). -/
def Obligations.ResetRestoresControlStateFromAnyState : Prop :=
  ∀ s : State, s.nextAct = .rst →
    ∃ t, step s = .next t ∧ t.st = .awaitStart ∧ t.idx = 0 ∧ t.haltCause = .none ∧
      t.ctr = ⟨0, 0, 0, 0, 0⟩ ∧ t.pktTx = [] ∧ t.ctrlTx = [] ∧ t.pbuf = s.pbuf ∧ t.cfg = s.cfg ∧
      t.out = s.out ∧
      t.pktLog = s.pktLog ∧ t.ctrlLog = s.ctrlLog

/-- The state after reset meets every invariant stated below, and its control state is the one R37 gives. -/
def Obligations.ResetStateMeetsTheInvariants : Prop :=
  State.reset.inv ∧ csumTracks State.reset ∧ State.reset.accounted ∧ State.reset.streamInOrder ∧
  State.reset.st = .awaitStart ∧ State.reset.idx = 0 ∧ State.reset.haltCause = .none ∧
  State.reset.ctr = ⟨0, 0, 0, 0, 0⟩ ∧ State.reset.pktTx = [] ∧ State.reset.ctrlTx = []

/-! ### The whole machine -/

/-- Every step keeps the invariant of reachable states (41_frame_decoder.md R130, 20_memory.md R51):
legal positions, the counters' width, the halt cause, the buffer's canonical form. -/
def Obligations.EveryStepKeepsTheInvariant : Prop :=
  ∀ s t : State, s.inv → step s = .next t → t.inv

/-- From a state that meets the invariant every step answers a next state (00_scope.md R14: the step
function is total): no fault, no refusal, whatever the input. -/
def Obligations.NoFaultOrRefusalUnderTheInvariant : Prop :=
  ∀ s : State, s.inv → ∃ t, step s = .next t

/-- Every step keeps the running checksum (40_checksum.md R102, 41_frame_decoder.md R130): `csum` is the
checksum of the bytes of the frame taken so far, and the payload among them is what the buffer holds. -/
def Obligations.EveryStepKeepsTheRunningChecksum : Prop :=
  ∀ s t : State, s.inv → csumTracks s → step s = .next t → csumTracks t

/-- Every step but reset keeps the accounts (10_state.md R27, 60_exceptions.md R225): each counter is the
number of its outcomes emitted so far, modulo `2 ^ CNT_W`; so no other event moves a counter. -/
def Obligations.CountersEqualOutcomesEmitted : Prop :=
  ∀ s t : State, s.accounted → s.nextAct ≠ .rst → step s = .next t → t.accounted

/-- Every step but reset keeps the packet stream (20_memory.md R63, 10_state.md R35): what the sink has
taken and is still offered is exactly the packets emitted, in order, byte by byte, last flags included. -/
def Obligations.PacketStreamIsEmittedPacketsInOrder : Prop :=
  ∀ s t : State, s.streamInOrder → s.nextAct ≠ .rst → step s = .next t → t.streamInOrder

/-- At most one packet is outstanding (20_memory.md R63): a step emits at most one packet, only while the
serialiser is empty, and then offers exactly its bytes. -/
def Obligations.AtMostOnePacketOutstanding : Prop :=
  ∀ s t : State, step s = .next t →
    packetsOf t.out = packetsOf s.out ∨
    ∃ p, packetsOf t.out = packetsOf s.out ++ [p] ∧ s.pktTx = [] ∧ t.pktTx = beats p

/-- Only reset leaves `Halted` (70_reset_and_hazards.md R250, 41_frame_decoder.md R128), and until then no
register of the decoder and no output changes, unless a unit is called on its own (log entry 6). -/
def Obligations.OnlyResetLeavesHalted : Prop :=
  ∀ s t : State, s.st = .halted → s.nextAct ≠ .rst → step s = .next t →
    t.st = .halted ∧ t.haltCause = s.haltCause ∧
    ((∀ c, s.nextAct ≠ .call c) → decoderPart t = decoderPart s ∧ t.out = s.out)

/-- The core halts only by `EndOfStream`, `Fatal` or `Stop` (41_frame_decoder.md R126, R127): a step into
`Halted` was the decoder's turn on such an event, its one output is that event's outcome, and no counter
moves. -/
def Obligations.OnlyTerminalEventsHalt : Prop :=
  ∀ s t : State, s.st ≠ .halted → step s = .next t → t.st = .halted →
    s.nextAct = .rx ∧ t.ctr = s.ctr ∧
    ((portEvent ⟨s.stopReq, s.source.headD .idle⟩ = .endOfStream ∧ t.haltCause = .endOfStream ∧
        t.out = s.out ++ [.outcome .ioFatalEndOfStream]) ∨
     (portEvent ⟨s.stopReq, s.source.headD .idle⟩ = .fatal ∧ t.haltCause = .fatal ∧
        t.out = s.out ++ [.outcome .ioFatalFatal]) ∨
     (portEvent ⟨s.stopReq, s.source.headD .idle⟩ = .stop ∧ t.haltCause = .stopped ∧
        t.out = s.out ++ [.outcome .stopped]))

/-- The buffer is written by payload bytes only and cleared by nothing, reset included (20_memory.md R51,
R53): a step that changes any byte was the decoder's turn in `ReadPayload`, and every index but `cnt` reads as before. -/
def Obligations.OnlyPayloadBytesWriteTheBuffer : Prop :=
  ∀ s t : State, step s = .next t →
    ∀ a, memRead t.pbuf a ≠ memRead s.pbuf a →
      s.nextAct = .rx ∧ s.st = .readPayload ∧ a = s.cnt.toNat ∧
      portEvent ⟨s.stopReq, s.source.headD .idle⟩ = .byte (s.source.headD .idle).data ∧
      memRead t.pbuf a = .ok (s.source.headD .idle).data

/-- Read after write, and the canonical form, of the payload buffer (20_memory.md R50, R62): indices 0 to
254 hold a byte each and can be stored to, and only they; the byte stored reads back and no other index
changes. -/
def Obligations.BufferReadsBackWhatWasWritten : Prop :=
  ∀ (m : Memory) (a : Nat) (v : Byte),
    (254 < a → memWrite m a v = .error .pbufRange ∧ memRead m a = .error .pbufRange) ∧
    (a ≤ 254 → (∃ w, memRead m a = .ok w) ∧ ∃ m', memWrite m a v = .ok m' ∧ (m.wf → m'.wf) ∧
      ∀ k, memRead m' k = if k = a then .ok v else memRead m k)

/-- No output depends on what a register or a buffer byte held before the frame in progress wrote it
(10_state.md R23, R29; 20_memory.md R53; U8, U9): two states that agree elsewhere step alike, and stay
alike. -/
def Obligations.StaleRegistersNeverReachAnOutput : Prop :=
  ∀ s t s' : State, sameVisible s t → step s = .next s' →
    ∃ t', step t = .next t' ∧ sameVisible s' t'

/-- The parameters never change, whatever the step (10_state.md R38, 00_scope.md R9); nor does any step
withdraw an output or a byte that has left the core (41_frame_decoder.md R127, 70_reset_and_hazards.md
R251). -/
def Obligations.ParametersFixedAndOutputsNeverWithdrawn : Prop :=
  ∀ s t : State, step s = .next t →
    t.cfg = s.cfg ∧ (∃ l, t.out = s.out ++ l) ∧ (∃ l, t.pktLog = s.pktLog ++ l) ∧
    (∃ l, t.ctrlLog = s.ctrlLog ++ l)

/-! ### The control stream -/

/-- A control request leaves as its twelve bytes, index 0 first, the last flag on the twelfth only (R201,
10_state.md R34, R36): from any state with the control serialiser idle, the request and twelve takings
append exactly those beats to the requester's record and leave everything else as it was. That a step is
one happening of the agenda is the model's choice (log entries 4 and 8). -/
def Obligations.ControlRequestLeavesAsTwelveBytes : Prop :=
  ∀ (s : State) (enable : Bool) (rest : List Act), s.ctrlTx = [] →
    s.agenda = .ctrlReq enable :: List.replicate 12 .ctrl ++ rest →
    runSteps 13 s = .next
      { s with
        agenda := rest
        ctrlLog := s.ctrlLog ++
          ([0x02, 0x00, 0x00, 0x06, 0x00, 0x1F, 0x00, 0x00, 0x00, if enable then 0x3F else 0x00,
            if enable then 0x26 else 0x19].map (fun b : Byte => ⟨b, false⟩) ++ [⟨0x03, true⟩]) }

/-- No control byte is dropped, reordered or invented (10_state.md R34, R36): what the requester has taken
and is still offered grows, in any step but reset, by the bytes of a request that finds the serialiser idle
and by nothing else; and a taking moves exactly the offered byte. -/
def Obligations.ControlStreamIsRequestsInOrder : Prop :=
  ∀ s t : State, s.nextAct ≠ .rst → step s = .next t →
    (∀ enable, s.nextAct = .ctrlReq enable → s.ctrlTx = [] →
      t.ctrlLog ++ t.ctrlTx = s.ctrlLog ++ beats (buildControl enable)) ∧
    ((∀ enable, s.nextAct ≠ .ctrlReq enable) ∨ s.ctrlTx ≠ [] →
      t.ctrlLog ++ t.ctrlTx = s.ctrlLog ++ s.ctrlTx) ∧
    (s.nextAct = .ctrl → t.ctrlTx = s.ctrlTx.tail)

/-! ### What the ports show of the position -/

/-- The control registers are each visible on an output port of their own (10_state.md R26, R29): the codes
of `st` and `halt_cause`, `idx` itself, `halted` exactly at the code of `Halted`; so what the ports show
determines the registers, and two states that differ only in data-path registers and the buffer, whatever
these hold, show the same. That `st` and `idx` have ports beside R34's list is read from R26 (log entry 14). -/
def Obligations.ControlRegistersShowOnPorts : Prop :=
  (∀ s : State,
    (s.st = .awaitStart → s.stPort = 0) ∧ (s.st = .readHeader → s.stPort = 1) ∧
    (s.st = .readPayload → s.stPort = 2) ∧ (s.st = .readTrailer → s.stPort = 3) ∧
    (s.st = .halted → s.stPort = 4) ∧ s.idxPort = s.idx ∧
    (s.haltCause = .none → s.haltCausePort = 0) ∧ (s.haltCause = .endOfStream → s.haltCausePort = 1) ∧
    (s.haltCause = .fatal → s.haltCausePort = 2) ∧ (s.haltCause = .stopped → s.haltCausePort = 3) ∧
    (s.haltedPort = true ↔ s.stPort = 4) ∧ s.counterPorts = s.ctr) ∧
  (∀ s t : State,
    (s.stPort = t.stPort ↔ s.st = t.st) ∧ (s.haltCausePort = t.haltCausePort ↔ s.haltCause = t.haltCause)) ∧
  (∀ (s : State) (appId csum cnt fcsRx : Byte) (dlen : BitVec 13) (pbuf : Memory),
    let t := { s with
      appId := appId, dlen := dlen, csum := csum, cnt := cnt, fcsRx := fcsRx, pbuf := pbuf }
    s.stPort = t.stPort ∧ s.idxPort = t.idxPort ∧ s.haltedPort = t.haltedPort ∧
    s.haltCausePort = t.haltCausePort ∧ s.counterPorts = t.counterPorts ∧ s.evtPulses = t.evtPulses ∧
    s.rxReady = t.rxReady ∧ s.pktValid = t.pktValid ∧ s.pktBeat = t.pktBeat ∧
    s.ctrlValid = t.ctrlValid ∧ s.ctrlBeat = t.ctrlBeat)

/-! ### What is unspecified after reset -/

/-- What R37 leaves unspecified after reset never matters (10_state.md R23, R37; 20_memory.md R53; U8): with
any data-path registers and any 255 bytes of buffer in `AwaitStart`, the same steps are taken and leave the
same position, counters, outputs and streams. So nothing rests on the values that log entries 1 and 2
choose. -/
def Obligations.UnspecifiedResetContentsNeverMatter : Prop :=
  ∀ (n : Nat) (s s' : State) (appId csum cnt fcsRx : Byte) (dlen : BitVec 13) (pbuf : Memory),
    s.st = .awaitStart → runSteps n s = .next s' →
    ∃ t', runSteps n { s with
        appId := appId, dlen := dlen, csum := csum, cnt := cnt, fcsRx := fcsRx, pbuf := pbuf } =
      .next t' ∧ sameVisible s' t'
end

