-- ==== Sys2Proof/Laws/Checksum.lean ====
section
/-! SUPPORT. The exclusive-or fold from any start (40_checksum.md R102, R104). -/

namespace Sys2Proof.Machine

/-- The running form from an accumulator (40_checksum.md R102). -/
theorem foldl_fold (bs : List Byte) (a : Byte) : bs.foldl fold a = a ^^^ compute bs := by
  unfold compute
  induction bs generalizing a with
  | nil => simp
  | cons b bs ih =>
    simp only [List.foldl]
    rw [ih (fold a b), ih (fold 0 b)]
    simp [fold, BitVec.xor_assoc]

theorem compute_cons (b : Byte) (bs : List Byte) : compute (b :: bs) = b ^^^ compute bs := by
  rw [compute, List.foldl, foldl_fold]
  simp [fold]

/-- One more byte is one more fold. -/
theorem compute_snoc (bs : List Byte) (b : Byte) : compute (bs ++ [b]) = fold (compute bs) b := by
  rw [compute, List.foldl_append]
  rfl

end Sys2Proof.Machine
end

