-- ==== Sys2Proof/Laws/Decode.lean ====
section
/-! SUPPORT. The small lemmas of the decoder: codes, ports and fields. -/

namespace Sys2Proof

@[simp] theorem ofCode_code (d : DecState) : DecState.ofCode d.code = some d := by
  cases d <;> rfl

@[simp] theorem portEvent_eventPort (e : Event) : portEvent (eventPort e) = e := by
  cases e <;> rfl

@[simp] theorem decode_eventWord (d : DecState) (idx : BitVec 2) (e : Event) :
    decode (eventWord d idx e) = decodeEvent d idx e := by
  simp [decode, eventWord]

theorem fmtByteOf_fields (ign : BitVec 3) (c : BitVec 4) (ul : BitVec 1) :
    formatCode (fmtByteOf ign c ul) = c ∧ uplinkBit (fmtByteOf ign c ul) = ul ∧
      ignoredBits (fmtByteOf ign c ul) = ign := by
  revert ign c ul
  decide

@[simp] theorem formatCode_fmtByteOf (ign : BitVec 3) (c : BitVec 4) (ul : BitVec 1) :
    formatCode (fmtByteOf ign c ul) = c := (fmtByteOf_fields ign c ul).1

@[simp] theorem uplinkBit_fmtByteOf (ign : BitVec 3) (c : BitVec 4) (ul : BitVec 1) :
    uplinkBit (fmtByteOf ign c ul) = ul := (fmtByteOf_fields ign c ul).2.1

@[simp] theorem ignoredBits_fmtByteOf (ign : BitVec 3) (c : BitVec 4) (ul : BitVec 1) :
    ignoredBits (fmtByteOf ign c ul) = ign := (fmtByteOf_fields ign c ul).2.2

/-- The direction row of a byte gives its bits 7..1 back. -/
theorem dirInstr_append (hi : BitVec 7) :
    dirInstr (hi ++ (0 : BitVec 1)) = .dirDl hi ∧ dirInstr (hi ++ (1 : BitVec 1)) = .dirUl hi := by
  revert hi
  decide

/-- A MAP row's word decodes to the row of its code. -/
theorem decode_mapper (ign : BitVec 3) (c : BitVec 4) (ul : BitVec 1) :
    decode (.mapper (fmtByteOf ign c ul)) = .ok (mapInstr c ign ul) := by
  simp [decode]

end Sys2Proof
end

