-- ==== Sys2Proof/Laws/Operands.lean ====
section
/-! SUPPORT. The operand forms as numbers: the declared length, the fields of the format byte, the
capacities. -/

namespace Sys2Proof.Machine

@[simp] theorem payloadCap_eq : payloadCap = 255 := rfl
@[simp] theorem metaBytes_eq : metaBytes = 5 := rfl
@[simp] theorem fmtByte_eq : fmtByte = 2 := rfl

/-- `LenHi` alone: five bits, eight places up (41_frame_decoder.md R116). -/
theorem dlenFromHi_toNat (b : Byte) : (dlenFromHi b).toNat = b.toNat % 32 * 256 := by
  revert b
  decide

/-- The completed length (41_frame_decoder.md R117). -/
theorem dlenWithLo_toNat (d : BitVec 13) (b : Byte) :
    (dlenWithLo d b).toNat = d.toNat / 256 * 256 + b.toNat := by
  have h1 := d.isLt
  have h2 := b.isLt
  simp only [dlenWithLo, BitVec.toNat_append, BitVec.extractLsb'_toNat]
  rw [Nat.shiftLeft_eq, Nat.shiftRight_eq_div_pow, Nat.mul_comm,
    ← Nat.two_pow_add_eq_or_of_lt (by simpa using h2)]
  omega

theorem oversize_iff (d : BitVec 13) : oversize d = true ↔ 255 < d.toNat := by
  simp [oversize]

theorem emptyLength_iff (d : BitVec 13) : emptyLength d = true ↔ d.toNat = 0 := by
  simp only [emptyLength, decide_eq_true_eq, ← BitVec.toNat_inj]
  rfl

/-- What RP.DATA's position says, as numbers. -/
theorem payloadPosition_iff (s : State) :
    payloadPosition s = true ↔ s.cnt.toNat < s.dlen.toNat ∧ s.dlen.toNat ≤ 255 := by
  simp [payloadPosition]

theorem lastPayload_iff (s : State) : lastPayload s = true ↔ s.cnt.toNat + 1 = s.dlen.toNat := by
  simp [lastPayload]

/-- The truncation condition, as numbers (43_gsmtap_encoder.md R182). -/
theorem truncated_iff (p : List Byte) :
    truncated p = true ↔ p.length < 5 ∨ p.length < 5 + contentLength p := by
  simp [truncated]

theorem not_truncated_iff (p : List Byte) :
    truncated p = false ↔ 5 + contentLength p ≤ p.length := by
  rw [← Bool.not_eq_true, truncated_iff]
  omega

/-- The fields of the format byte depend on its five low bits only (30_encoding.md R77). -/
theorem formatFields_of_mod {a b : Byte} (h : a.toNat % 32 = b.toNat % 32) :
    formatCode a = formatCode b ∧ uplinkBit a = uplinkBit b := by
  constructor <;> apply BitVec.eq_of_toNat_eq <;>
    simp [formatCode, uplinkBit, Nat.shiftRight_eq_div_pow] <;> omega

end Sys2Proof.Machine
end

