-- ==== Sys2Proof/Laws/Encoder.lean ====
section
/-! SUPPORT. The header as laid fields, and what an encode answers (43_gsmtap_encoder.md R180, R183). -/

namespace Sys2Proof.Machine

@[simp] theorem placeFields_length (fs : List (Nat × Byte)) (h : List Byte) :
    (placeFields h fs).length = h.length := by
  unfold placeFields
  induction fs generalizing h with
  | nil => rfl
  | cons f fs ih => simp [List.foldl, ih]

/-- An offset no field occupies keeps its byte. -/
theorem placeFields_getElem?_of_notMem {fs : List (Nat × Byte)} {o : Nat} (h : List Byte)
    (ho : o ∉ fs.map (·.1)) : (placeFields h fs)[o]? = h[o]? := by
  unfold placeFields
  induction fs generalizing h with
  | nil => rfl
  | cons f fs ih =>
    simp only [List.map_cons, List.mem_cons, not_or] at ho
    simp only [List.foldl]
    rw [ih _ ho.2, List.getElem?_set_ne (Ne.symm ho.1)]

/-- With distinct offsets each field keeps its own byte. -/
theorem placeFields_getElem?_of_mem {fs : List (Nat × Byte)} {h : List Byte} {o : Nat} {v : Byte}
    (hn : (fs.map (·.1)).Nodup) (hm : (o, v) ∈ fs) (hlt : o < h.length) :
    (placeFields h fs)[o]? = some v := by
  induction fs generalizing h with
  | nil => simp at hm
  | cons f fs ih =>
    simp only [List.map_cons, List.nodup_cons] at hn
    rw [show placeFields h (f :: fs) = placeFields (h.set f.1 f.2) fs from rfl]
    rcases List.mem_cons.1 hm with rfl | hm
    · rw [placeFields_getElem?_of_notMem _ hn.1]
      simp [hlt]
    · exact ih hn.2 hm (by simpa using hlt)

@[simp] theorem headerFields_offsets (p : Params) (m : MapResult) (ul : Bool) :
    (headerFields p m ul).map (·.1) = p.layout.offsets := rfl

@[simp] theorem buildHeader_length (p : Params) (m : MapResult) (ul : Bool) :
    (buildHeader p m ul).length = 4 * p.hdrWords.toNat := by
  simp [buildHeader]

/-- Under a sound layout the header holds every field's byte. -/
theorem buildHeader_field {p : Params} {m : MapResult} {ul : Bool} {o : Nat} {v : Byte}
    (hok : p.layoutOk) (hm : (o, v) ∈ headerFields p m ul) :
    (buildHeader p m ul)[o]? = some v := by
  refine placeFields_getElem?_of_mem (by simpa using hok.1) hm ?_
  have : o ∈ p.layout.offsets := by
    rw [← headerFields_offsets p m ul]
    exact List.mem_map_of_mem hm
  simpa using hok.2 o this

/-- An encode that answers: the payload was long enough, and the packet is header and content. -/
theorem encodePacket_some {cfg : Params} {p pk : List Byte} :
    encodePacket cfg p = some pk ↔ 5 + contentLength p ≤ p.length ∧
      pk = buildHeader cfg (mapCode cfg (formatCode (payloadByte p 2)))
        (isUplink (payloadByte p 2)) ++ traceContent p := by
  unfold encodePacket
  split
  · next ht =>
    have := (truncated_iff p).1 ht
    constructor
    · exact fun h => nomatch h
    · rintro ⟨h, -⟩; omega
  · next ht =>
    have := (not_truncated_iff p).1 (by simpa using ht)
    constructor
    · exact fun h => ⟨this, (Option.some.inj h).symm⟩
    · rintro ⟨-, h⟩
      rw [h]

theorem encodePacket_none {cfg : Params} {p : List Byte} :
    encodePacket cfg p = none ↔ p.length < 5 + contentLength p := by
  unfold encodePacket
  split
  · next ht =>
    have := (truncated_iff p).1 ht
    simp only [true_iff]
    omega
  · next ht =>
    have := (not_truncated_iff p).1 (by simpa using ht)
    simp only [reduceCtorEq, false_iff]
    omega

end Sys2Proof.Machine
end

