-- ==== Sys2Proof/Laws/Memory.lean ====
section
/-! SUPPORT. The payload buffer: read after write, the canonical form, and what a read of several
bytes answers (20_memory.md R50, R62). -/

namespace Sys2Proof.Machine

/-- Reset's buffer is in canonical form. -/
theorem Memory.wf_nil : Memory.wf [] := ⟨List.Pairwise.nil, by simp⟩

/-! ### One byte listed, one byte no longer listed -/

theorem memLookup_memInsert (m : Memory) (a k : Nat) (v : Byte) :
    memLookup (memInsert m a v) k = if k = a then some v else memLookup m k := by
  induction m with
  | nil => by_cases h : k = a <;> simp [memInsert, memLookup, h, eq_comm (a := a)]
  | cons c m ih =>
    obtain ⟨b, w⟩ := c
    simp only [memInsert]
    split
    · by_cases h : k = a
      · simp [memLookup, h]
      · have h' : ¬ a = k := fun e => h e.symm
        simp [memLookup, h, h']
    · split
      · next hab =>
        subst hab
        by_cases h : k = a
        · simp [memLookup, h]
        · have h' : ¬ a = k := fun e => h e.symm
          simp [memLookup, h, h']
      · next hab =>
        by_cases h : b = k
        · have h' : ¬ k = a := by omega
          simp [memLookup, h, h']
        · simp [memLookup, h, ih]

theorem memLookup_memErase (m : Memory) (a k : Nat) :
    memLookup (memErase m a) k = if k = a then none else memLookup m k := by
  induction m with
  | nil => by_cases h : k = a <;> simp [memErase, memLookup, h]
  | cons c m ih =>
    obtain ⟨b, w⟩ := c
    simp only [memErase, ne_eq, decide_not] at ih
    by_cases hb : b = a
    · subst hb
      by_cases h : k = b
      · simpa [memErase, h] using ih
      · simp [memErase, memLookup, ih, h, Ne.symm h]
    · by_cases h : b = k
      · subst h
        simp [memErase, memLookup, hb]
      · simp [memErase, memLookup, hb, h, ih]

/-- Where an insertion lists its indices. -/
theorem mem_memInsert {m : Memory} {a : Nat} {v : Byte} {c : Host.Cell} (h : c ∈ memInsert m a v) :
    c = (a, v) ∨ c ∈ m := by
  induction m with
  | nil => simpa [memInsert] using h
  | cons d m ih =>
    obtain ⟨b, w⟩ := d
    simp only [memInsert] at h
    split at h
    · simpa using h
    · split at h
      · rcases List.mem_cons.1 h with h | h
        · exact .inl h
        · exact .inr (List.mem_cons_of_mem _ h)
      · rcases List.mem_cons.1 h with h | h
        · exact .inr (h ▸ List.mem_cons_self)
        · rcases ih h with h | h
          · exact .inl h
          · exact .inr (List.mem_cons_of_mem _ h)

theorem memInsert_wf {m : Memory} {a : Nat} {v : Byte} (hm : m.wf) (ha : a < payloadCap)
    (hv : v ≠ unlistedByte) : (memInsert m a v).wf := by
  obtain ⟨hp, hb⟩ := hm
  refine ⟨?_, ?_⟩
  · clear hb
    induction m with
    | nil => simp [memInsert]
    | cons d m ih =>
      obtain ⟨b, w⟩ := d
      obtain ⟨hd, hm⟩ := List.pairwise_cons.1 hp
      simp only [memInsert]
      split
      · next hlt =>
        refine List.pairwise_cons.2 ⟨fun c hc => ?_, hp⟩
        rcases List.mem_cons.1 hc with rfl | hc
        · exact hlt
        · exact Nat.lt_trans hlt (hd c hc)
      · split
        · next hab => exact List.pairwise_cons.2 ⟨fun c hc => hab ▸ hd c hc, hm⟩
        · next hlt hne =>
          refine List.pairwise_cons.2 ⟨fun c hc => ?_, ih hm⟩
          rcases mem_memInsert hc with rfl | hc
          · show b < a
            omega
          · exact hd c hc
  · intro c hc
    rcases mem_memInsert hc with rfl | hc
    · exact ⟨ha, hv⟩
    · exact hb c hc

theorem memErase_wf {m : Memory} (a : Nat) (hm : m.wf) : (memErase m a).wf :=
  ⟨hm.1.sublist List.filter_sublist, fun c hc => hm.2 c (List.mem_of_mem_filter hc)⟩

/-! ### Store and read -/

/-- Read after write at every index (20_memory.md R62), whatever the buffer lists. -/
@[simp] theorem memByte_memStore (m : Memory) (a k : Nat) (v : Byte) :
    memByte (memStore m a v) k = if k = a then v else memByte m k := by
  unfold memStore memByte
  split
  · next hv => rw [memLookup_memErase]; split <;> simp [hv]
  · rw [memLookup_memInsert]; split <;> simp

/-- A store keeps the canonical form. -/
theorem memStore_wf {m : Memory} {a : Nat} (v : Byte) (hm : m.wf) (ha : a < payloadCap) :
    (memStore m a v).wf := by
  unfold memStore
  split
  · exact memErase_wf a hm
  · next hv => exact memInsert_wf hm ha hv

theorem memLookup_of_lt {m : Memory} {a : Nat} (h : ∀ c ∈ m, a < c.1) : memLookup m a = none := by
  induction m with
  | nil => rfl
  | cons c m ih =>
    obtain ⟨b, w⟩ := c
    have hb : ¬ b = a := fun e => Nat.lt_irrefl a (by simpa [e] using h (b, w) List.mem_cons_self)
    simp only [memLookup, hb, if_false]
    exact ih fun c hc => h c (List.mem_cons_of_mem _ hc)

/-- Equal contents are equal data: a canonical buffer is determined by what its indices read as. -/
theorem Memory.ext_of_wf {m m' : Memory} (hm : m.wf) (hm' : m'.wf)
    (h : ∀ k, memByte m k = memByte m' k) : m = m' := by
  induction m generalizing m' with
  | nil =>
    cases m' with
    | nil => rfl
    | cons c m' =>
      have := h c.1
      simp only [memByte, memLookup, if_true, Option.getD_none, Option.getD_some] at this
      exact absurd this.symm (hm'.2 c List.mem_cons_self).2
  | cons c m ih =>
    cases m' with
    | nil =>
      have := h c.1
      simp only [memByte, memLookup, if_true, Option.getD_none, Option.getD_some] at this
      exact absurd this (hm.2 c List.mem_cons_self).2
    | cons d m' =>
      obtain ⟨hc, hp⟩ := List.pairwise_cons.1 hm.1
      obtain ⟨hd, hp'⟩ := List.pairwise_cons.1 hm'.1
      have hkc := h c.1
      have hkd := h d.1
      simp only [memByte, memLookup, if_true, Option.getD_some] at hkc hkd
      rcases Nat.lt_trichotomy c.1 d.1 with hlt | he | hlt
      · have hn : memLookup m' c.1 = none := memLookup_of_lt fun e hm => Nat.lt_trans hlt (hd e hm)
        rw [if_neg (Nat.ne_of_gt hlt), hn] at hkc
        exact absurd hkc (hm.2 c List.mem_cons_self).2
      · rw [if_pos he.symm] at hkc
        have hcd : c = d := Prod.ext he hkc
        subst hcd
        refine congrArg _ (ih ⟨hp, fun e hm' => hm.2 e (List.mem_cons_of_mem _ hm')⟩
          ⟨hp', fun e hm => hm'.2 e (List.mem_cons_of_mem _ hm)⟩ fun k => ?_)
        by_cases hk : c.1 = k
        · subst hk
          simp only [memByte, memLookup_of_lt hc, memLookup_of_lt hd]
        · simpa only [memByte, memLookup, hk, if_false] using h k
      · have hn : memLookup m d.1 = none := memLookup_of_lt fun e hm => Nat.lt_trans hlt (hc e hm)
        rw [if_neg (Nat.ne_of_gt hlt), hn] at hkd
        exact absurd hkd.symm (hm'.2 d List.mem_cons_self).2

/-- What a store answers. -/
theorem memWrite_ok {m m' : Memory} {a : Nat} {v : Byte} (h : memWrite m a v = .ok m') :
    a < payloadCap ∧ m' = memStore m a v := by
  unfold memWrite at h
  split at h
  · next ha => exact ⟨ha, by cases h; rfl⟩
  · cases h

theorem memWrite_of_lt {m : Memory} {a : Nat} (v : Byte) (ha : a < payloadCap) :
    memWrite m a v = .ok (memStore m a v) := by
  simp [memWrite, ha]

/-- A read answers `pbuf[i]` exactly at the indices of the buffer (20_memory.md R50). -/
theorem memRead_ok {m : Memory} {a : Nat} {v : Byte} :
    memRead m a = .ok v ↔ a < payloadCap ∧ memByte m a = v := by
  unfold memRead
  split
  · next ha => simp [ha]
  · next ha => simp [ha]

theorem memRead_of_lt {m : Memory} {a : Nat} (ha : a < payloadCap) :
    memRead m a = .ok (memByte m a) := if_pos ha

theorem memRead_of_not_lt {m : Memory} {a : Nat} (ha : ¬ a < payloadCap) :
    memRead m a = .error .pbufRange := if_neg ha

/-- Read after write through the model's read. -/
theorem memRead_memStore {m : Memory} {a : Nat} (k : Nat) (v : Byte) (ha : a < payloadCap) :
    memRead (memStore m a v) k = if k = a then .ok v else memRead m k := by
  by_cases h : k = a
  · subst h
    simp [memRead, ha]
  · simp [memRead, h]

/-- A read of `n` bytes answers the sequence whose elements the single reads answer. -/
theorem memReadBytes_ok {m : Memory} {n start : Nat} {p : List Byte} :
    memReadBytes m start n = .ok p ↔
      p.length = n ∧ ∀ i (h : i < p.length), memRead m (start + i) = .ok p[i] := by
  induction n generalizing start p with
  | zero =>
    constructor
    · intro h
      cases h
      simp
    · rintro ⟨hl, -⟩
      rw [List.length_eq_zero_iff.1 hl]
      rfl
  | succ n ih =>
    constructor
    · intro h
      simp only [memReadBytes] at h
      split at h
      · cases h
      · next b hb =>
        split at h
        · cases h
        · next bs hbs =>
          cases h
          obtain ⟨hl, hi⟩ := ih.1 hbs
          refine ⟨by simp [hl], fun i h => ?_⟩
          cases i with
          | zero => simpa using hb
          | succ i =>
            have := hi i (by simpa using h)
            rw [show start + (i + 1) = start + 1 + i by omega]
            simpa using this
    · rintro ⟨hl, hi⟩
      cases p with
      | nil => simp at hl
      | cons b bs =>
        have h0 : memRead m start = .ok b := hi 0 (Nat.zero_lt_succ _)
        have h1 : memReadBytes m (start + 1) n = .ok bs := by
          refine ih.2 ⟨by simpa using hl, fun i h => ?_⟩
          have := hi (i + 1) (by simpa using h)
          rw [show start + 1 + i = start + (i + 1) by omega]
          simpa using this
        simp [memReadBytes, h0, h1]

/-- A read of bytes inside the buffer answers. -/
theorem memReadBytes_total {m : Memory} {n start : Nat} (hn : start + n ≤ payloadCap) :
    ∃ p, memReadBytes m start n = .ok p := by
  induction n generalizing start with
  | zero => exact ⟨[], rfl⟩
  | succ n ih =>
    obtain ⟨bs, hbs⟩ := ih (start := start + 1) (by omega)
    have hr := memRead_of_lt (m := m) (a := start) (by omega)
    exact ⟨memByte m start :: bs, by simp [memReadBytes, hr, hbs]⟩

/-- A store past the bytes read does not change what they read as. -/
theorem memReadBytes_snoc {m : Memory} {n : Nat} {p : List Byte} (v : Byte) (hn : n < payloadCap)
    (h : memReadBytes m 0 n = .ok p) :
    memReadBytes (memStore m n v) 0 (n + 1) = .ok (p ++ [v]) := by
  obtain ⟨hl, hi⟩ := memReadBytes_ok.1 h
  refine memReadBytes_ok.2 ⟨by simp [hl], fun i h => ?_⟩
  rw [memRead_memStore _ _ hn]
  by_cases he : i = n
  · subst he
    simp [← hl]
  · have hlt : i < p.length := by simp at h; omega
    have := hi i hlt
    simp only [Nat.zero_add] at this ⊢
    rw [if_neg he, this, List.getElem_append_left hlt]

end Sys2Proof.Machine
end

