-- ==== Sys2Proof/Laws/PerInstr.lean ====
section
/-! SUPPORT. Statements about every instruction as syntax, one lemma per constructor: decoding the word
of a well-formed instruction gives it back. -/

namespace Sys2Proof.Laws.RoundTrip

/-- Decode of encode is the instruction (30_encoding.md R90). -/
def Statement (i : Instr) : Prop := i.wf = true → decode (encode i) = .ok i

theorem asSkip (b : Byte) : Statement (.asSkip b) := by
  intro h
  have hb : b ≠ stx := by simpa [Instr.wf] using h
  simp [encode, decodeEvent, positionReject, decodeByte, hb]

theorem asStx : Statement .asStx := fun _ => rfl
theorem rhAppid (b : Byte) : Statement (.rhAppid b) := fun _ => rfl
theorem rhLenhi (b : Byte) : Statement (.rhLenhi b) := fun _ => rfl
theorem rhLenlo (b : Byte) : Statement (.rhLenlo b) := fun _ => rfl
theorem rpData (b : Byte) : Statement (.rpData b) := fun _ => rfl
theorem rtFcs (b : Byte) : Statement (.rtFcs b) := fun _ => rfl

theorem rtBadetx (b : Byte) : Statement (.rtBadetx b) := by
  intro h
  have hb : b ≠ etx := by simpa [Instr.wf] using h
  simp [encode, decodeEvent, positionReject, decodeByte, hb]

theorem rtEtx : Statement .rtEtx := fun _ => rfl
theorem evRetry : Statement .evRetry := fun _ => rfl
theorem evEos : Statement .evEos := fun _ => rfl
theorem evFatal : Statement .evFatal := fun _ => rfl
theorem evStop : Statement .evStop := fun _ => rfl

theorem haltIgn (e : Event) : Statement (.haltIgn e) := by
  intro _
  simp [encode, decodeEvent, positionReject]

theorem map0 (ign : BitVec 3) (ul : BitVec 1) : Statement (.map0 ign ul) :=
  fun _ => decode_mapper ign 0 ul
theorem map1 (ign : BitVec 3) (ul : BitVec 1) : Statement (.map1 ign ul) :=
  fun _ => decode_mapper ign 1 ul
theorem map2 (ign : BitVec 3) (ul : BitVec 1) : Statement (.map2 ign ul) :=
  fun _ => decode_mapper ign 2 ul
theorem map3 (ign : BitVec 3) (ul : BitVec 1) : Statement (.map3 ign ul) :=
  fun _ => decode_mapper ign 3 ul
theorem map4 (ign : BitVec 3) (ul : BitVec 1) : Statement (.map4 ign ul) :=
  fun _ => decode_mapper ign 4 ul
theorem map5 (ign : BitVec 3) (ul : BitVec 1) : Statement (.map5 ign ul) :=
  fun _ => decode_mapper ign 5 ul
theorem map6 (ign : BitVec 3) (ul : BitVec 1) : Statement (.map6 ign ul) :=
  fun _ => decode_mapper ign 6 ul
theorem map7 (ign : BitVec 3) (ul : BitVec 1) : Statement (.map7 ign ul) :=
  fun _ => decode_mapper ign 7 ul
theorem map8 (ign : BitVec 3) (ul : BitVec 1) : Statement (.map8 ign ul) :=
  fun _ => decode_mapper ign 8 ul
theorem map9 (ign : BitVec 3) (ul : BitVec 1) : Statement (.map9 ign ul) :=
  fun _ => decode_mapper ign 9 ul
theorem map10 (ign : BitVec 3) (ul : BitVec 1) : Statement (.map10 ign ul) :=
  fun _ => decode_mapper ign 10 ul
theorem map11 (ign : BitVec 3) (ul : BitVec 1) : Statement (.map11 ign ul) :=
  fun _ => decode_mapper ign 11 ul
theorem map12 (ign : BitVec 3) (ul : BitVec 1) : Statement (.map12 ign ul) :=
  fun _ => decode_mapper ign 12 ul
theorem map13 (ign : BitVec 3) (ul : BitVec 1) : Statement (.map13 ign ul) :=
  fun _ => decode_mapper ign 13 ul
theorem map14 (ign : BitVec 3) (ul : BitVec 1) : Statement (.map14 ign ul) :=
  fun _ => decode_mapper ign 14 ul
theorem map15 (ign : BitVec 3) (ul : BitVec 1) : Statement (.map15 ign ul) :=
  fun _ => decode_mapper ign 15 ul

theorem dirDl (hi : BitVec 7) : Statement (.dirDl hi) :=
  fun _ => congrArg Except.ok (dirInstr_append hi).1

theorem dirUl (hi : BitVec 7) : Statement (.dirUl hi) :=
  fun _ => congrArg Except.ok (dirInstr_append hi).2

theorem gtEnc (f : Frame) : Statement (.gtEnc f) := by
  intro h
  have hf : f.wf := by simpa only [Instr.wf, decide_eq_true_eq] using h
  exact if_pos hf

theorem crEn : Statement .crEn := fun _ => rfl
theorem crDis : Statement .crDis := fun _ => rfl

end Sys2Proof.Laws.RoundTrip
end

