-- ==== Sys2Proof/Laws/State.lean ====
section
/-! SUPPORT. One lemma per field per named update of State, so that no proof unfolds a record update. -/

namespace Sys2Proof.Machine

/-! ### `emit` -/

@[simp] theorem emit_cfg (o : Output) (s : State) : (s.emit o).cfg = s.cfg := rfl
@[simp] theorem emit_st (o : Output) (s : State) : (s.emit o).st = s.st := rfl
@[simp] theorem emit_idx (o : Output) (s : State) : (s.emit o).idx = s.idx := rfl
@[simp] theorem emit_haltCause (o : Output) (s : State) : (s.emit o).haltCause = s.haltCause := rfl
@[simp] theorem emit_appId (o : Output) (s : State) : (s.emit o).appId = s.appId := rfl
@[simp] theorem emit_dlen (o : Output) (s : State) : (s.emit o).dlen = s.dlen := rfl
@[simp] theorem emit_csum (o : Output) (s : State) : (s.emit o).csum = s.csum := rfl
@[simp] theorem emit_cnt (o : Output) (s : State) : (s.emit o).cnt = s.cnt := rfl
@[simp] theorem emit_fcsRx (o : Output) (s : State) : (s.emit o).fcsRx = s.fcsRx := rfl
@[simp] theorem emit_ctr (o : Output) (s : State) : (s.emit o).ctr = s.ctr := rfl
@[simp] theorem emit_pbuf (o : Output) (s : State) : (s.emit o).pbuf = s.pbuf := rfl
@[simp] theorem emit_pktTx (o : Output) (s : State) : (s.emit o).pktTx = s.pktTx := rfl
@[simp] theorem emit_ctrlTx (o : Output) (s : State) : (s.emit o).ctrlTx = s.ctrlTx := rfl
@[simp] theorem emit_mapOut (o : Output) (s : State) : (s.emit o).mapOut = s.mapOut := rfl
@[simp] theorem emit_dirOut (o : Output) (s : State) : (s.emit o).dirOut = s.dirOut := rfl
@[simp] theorem emit_out (o : Output) (s : State) : (s.emit o).out = s.out ++ [o] := rfl
@[simp] theorem emit_pktLog (o : Output) (s : State) : (s.emit o).pktLog = s.pktLog := rfl
@[simp] theorem emit_ctrlLog (o : Output) (s : State) : (s.emit o).ctrlLog = s.ctrlLog := rfl
@[simp] theorem emit_source (o : Output) (s : State) : (s.emit o).source = s.source := rfl
@[simp] theorem emit_stopReq (o : Output) (s : State) : (s.emit o).stopReq = s.stopReq := rfl
@[simp] theorem emit_agenda (o : Output) (s : State) : (s.emit o).agenda = s.agenda := rfl

/-! ### `countOk` -/

@[simp] theorem countOk_cfg (s : State) : (s.countOk).cfg = s.cfg := rfl
@[simp] theorem countOk_st (s : State) : (s.countOk).st = s.st := rfl
@[simp] theorem countOk_idx (s : State) : (s.countOk).idx = s.idx := rfl
@[simp] theorem countOk_haltCause (s : State) : (s.countOk).haltCause = s.haltCause := rfl
@[simp] theorem countOk_appId (s : State) : (s.countOk).appId = s.appId := rfl
@[simp] theorem countOk_dlen (s : State) : (s.countOk).dlen = s.dlen := rfl
@[simp] theorem countOk_csum (s : State) : (s.countOk).csum = s.csum := rfl
@[simp] theorem countOk_cnt (s : State) : (s.countOk).cnt = s.cnt := rfl
@[simp] theorem countOk_fcsRx (s : State) : (s.countOk).fcsRx = s.fcsRx := rfl
@[simp] theorem countOk_ctr (s : State) : (s.countOk).ctr = { s.ctr with nOk := incCounter s.cfg.cntW s.ctr.nOk } := rfl
@[simp] theorem countOk_pbuf (s : State) : (s.countOk).pbuf = s.pbuf := rfl
@[simp] theorem countOk_pktTx (s : State) : (s.countOk).pktTx = s.pktTx := rfl
@[simp] theorem countOk_ctrlTx (s : State) : (s.countOk).ctrlTx = s.ctrlTx := rfl
@[simp] theorem countOk_mapOut (s : State) : (s.countOk).mapOut = s.mapOut := rfl
@[simp] theorem countOk_dirOut (s : State) : (s.countOk).dirOut = s.dirOut := rfl
@[simp] theorem countOk_out (s : State) : (s.countOk).out = s.out := rfl
@[simp] theorem countOk_pktLog (s : State) : (s.countOk).pktLog = s.pktLog := rfl
@[simp] theorem countOk_ctrlLog (s : State) : (s.countOk).ctrlLog = s.ctrlLog := rfl
@[simp] theorem countOk_source (s : State) : (s.countOk).source = s.source := rfl
@[simp] theorem countOk_stopReq (s : State) : (s.countOk).stopReq = s.stopReq := rfl
@[simp] theorem countOk_agenda (s : State) : (s.countOk).agenda = s.agenda := rfl

/-! ### `countErr` -/

@[simp] theorem countErr_cfg (s : State) : (s.countErr).cfg = s.cfg := rfl
@[simp] theorem countErr_st (s : State) : (s.countErr).st = s.st := rfl
@[simp] theorem countErr_idx (s : State) : (s.countErr).idx = s.idx := rfl
@[simp] theorem countErr_haltCause (s : State) : (s.countErr).haltCause = s.haltCause := rfl
@[simp] theorem countErr_appId (s : State) : (s.countErr).appId = s.appId := rfl
@[simp] theorem countErr_dlen (s : State) : (s.countErr).dlen = s.dlen := rfl
@[simp] theorem countErr_csum (s : State) : (s.countErr).csum = s.csum := rfl
@[simp] theorem countErr_cnt (s : State) : (s.countErr).cnt = s.cnt := rfl
@[simp] theorem countErr_fcsRx (s : State) : (s.countErr).fcsRx = s.fcsRx := rfl
@[simp] theorem countErr_ctr (s : State) : (s.countErr).ctr = { s.ctr with nErr := incCounter s.cfg.cntW s.ctr.nErr } := rfl
@[simp] theorem countErr_pbuf (s : State) : (s.countErr).pbuf = s.pbuf := rfl
@[simp] theorem countErr_pktTx (s : State) : (s.countErr).pktTx = s.pktTx := rfl
@[simp] theorem countErr_ctrlTx (s : State) : (s.countErr).ctrlTx = s.ctrlTx := rfl
@[simp] theorem countErr_mapOut (s : State) : (s.countErr).mapOut = s.mapOut := rfl
@[simp] theorem countErr_dirOut (s : State) : (s.countErr).dirOut = s.dirOut := rfl
@[simp] theorem countErr_out (s : State) : (s.countErr).out = s.out := rfl
@[simp] theorem countErr_pktLog (s : State) : (s.countErr).pktLog = s.pktLog := rfl
@[simp] theorem countErr_ctrlLog (s : State) : (s.countErr).ctrlLog = s.ctrlLog := rfl
@[simp] theorem countErr_source (s : State) : (s.countErr).source = s.source := rfl
@[simp] theorem countErr_stopReq (s : State) : (s.countErr).stopReq = s.stopReq := rfl
@[simp] theorem countErr_agenda (s : State) : (s.countErr).agenda = s.agenda := rfl

/-! ### `countCksum` -/

@[simp] theorem countCksum_cfg (s : State) : (s.countCksum).cfg = s.cfg := rfl
@[simp] theorem countCksum_st (s : State) : (s.countCksum).st = s.st := rfl
@[simp] theorem countCksum_idx (s : State) : (s.countCksum).idx = s.idx := rfl
@[simp] theorem countCksum_haltCause (s : State) : (s.countCksum).haltCause = s.haltCause := rfl
@[simp] theorem countCksum_appId (s : State) : (s.countCksum).appId = s.appId := rfl
@[simp] theorem countCksum_dlen (s : State) : (s.countCksum).dlen = s.dlen := rfl
@[simp] theorem countCksum_csum (s : State) : (s.countCksum).csum = s.csum := rfl
@[simp] theorem countCksum_cnt (s : State) : (s.countCksum).cnt = s.cnt := rfl
@[simp] theorem countCksum_fcsRx (s : State) : (s.countCksum).fcsRx = s.fcsRx := rfl
@[simp] theorem countCksum_ctr (s : State) : (s.countCksum).ctr = { s.ctr with nCksum := incCounter s.cfg.cntW s.ctr.nCksum } := rfl
@[simp] theorem countCksum_pbuf (s : State) : (s.countCksum).pbuf = s.pbuf := rfl
@[simp] theorem countCksum_pktTx (s : State) : (s.countCksum).pktTx = s.pktTx := rfl
@[simp] theorem countCksum_ctrlTx (s : State) : (s.countCksum).ctrlTx = s.ctrlTx := rfl
@[simp] theorem countCksum_mapOut (s : State) : (s.countCksum).mapOut = s.mapOut := rfl
@[simp] theorem countCksum_dirOut (s : State) : (s.countCksum).dirOut = s.dirOut := rfl
@[simp] theorem countCksum_out (s : State) : (s.countCksum).out = s.out := rfl
@[simp] theorem countCksum_pktLog (s : State) : (s.countCksum).pktLog = s.pktLog := rfl
@[simp] theorem countCksum_ctrlLog (s : State) : (s.countCksum).ctrlLog = s.ctrlLog := rfl
@[simp] theorem countCksum_source (s : State) : (s.countCksum).source = s.source := rfl
@[simp] theorem countCksum_stopReq (s : State) : (s.countCksum).stopReq = s.stopReq := rfl
@[simp] theorem countCksum_agenda (s : State) : (s.countCksum).agenda = s.agenda := rfl

/-! ### `countFiltered` -/

@[simp] theorem countFiltered_cfg (s : State) : (s.countFiltered).cfg = s.cfg := rfl
@[simp] theorem countFiltered_st (s : State) : (s.countFiltered).st = s.st := rfl
@[simp] theorem countFiltered_idx (s : State) : (s.countFiltered).idx = s.idx := rfl
@[simp] theorem countFiltered_haltCause (s : State) : (s.countFiltered).haltCause = s.haltCause := rfl
@[simp] theorem countFiltered_appId (s : State) : (s.countFiltered).appId = s.appId := rfl
@[simp] theorem countFiltered_dlen (s : State) : (s.countFiltered).dlen = s.dlen := rfl
@[simp] theorem countFiltered_csum (s : State) : (s.countFiltered).csum = s.csum := rfl
@[simp] theorem countFiltered_cnt (s : State) : (s.countFiltered).cnt = s.cnt := rfl
@[simp] theorem countFiltered_fcsRx (s : State) : (s.countFiltered).fcsRx = s.fcsRx := rfl
@[simp] theorem countFiltered_ctr (s : State) : (s.countFiltered).ctr = { s.ctr with nFiltered := incCounter s.cfg.cntW s.ctr.nFiltered } := rfl
@[simp] theorem countFiltered_pbuf (s : State) : (s.countFiltered).pbuf = s.pbuf := rfl
@[simp] theorem countFiltered_pktTx (s : State) : (s.countFiltered).pktTx = s.pktTx := rfl
@[simp] theorem countFiltered_ctrlTx (s : State) : (s.countFiltered).ctrlTx = s.ctrlTx := rfl
@[simp] theorem countFiltered_mapOut (s : State) : (s.countFiltered).mapOut = s.mapOut := rfl
@[simp] theorem countFiltered_dirOut (s : State) : (s.countFiltered).dirOut = s.dirOut := rfl
@[simp] theorem countFiltered_out (s : State) : (s.countFiltered).out = s.out := rfl
@[simp] theorem countFiltered_pktLog (s : State) : (s.countFiltered).pktLog = s.pktLog := rfl
@[simp] theorem countFiltered_ctrlLog (s : State) : (s.countFiltered).ctrlLog = s.ctrlLog := rfl
@[simp] theorem countFiltered_source (s : State) : (s.countFiltered).source = s.source := rfl
@[simp] theorem countFiltered_stopReq (s : State) : (s.countFiltered).stopReq = s.stopReq := rfl
@[simp] theorem countFiltered_agenda (s : State) : (s.countFiltered).agenda = s.agenda := rfl

/-! ### `countEncErr` -/

@[simp] theorem countEncErr_cfg (s : State) : (s.countEncErr).cfg = s.cfg := rfl
@[simp] theorem countEncErr_st (s : State) : (s.countEncErr).st = s.st := rfl
@[simp] theorem countEncErr_idx (s : State) : (s.countEncErr).idx = s.idx := rfl
@[simp] theorem countEncErr_haltCause (s : State) : (s.countEncErr).haltCause = s.haltCause := rfl
@[simp] theorem countEncErr_appId (s : State) : (s.countEncErr).appId = s.appId := rfl
@[simp] theorem countEncErr_dlen (s : State) : (s.countEncErr).dlen = s.dlen := rfl
@[simp] theorem countEncErr_csum (s : State) : (s.countEncErr).csum = s.csum := rfl
@[simp] theorem countEncErr_cnt (s : State) : (s.countEncErr).cnt = s.cnt := rfl
@[simp] theorem countEncErr_fcsRx (s : State) : (s.countEncErr).fcsRx = s.fcsRx := rfl
@[simp] theorem countEncErr_ctr (s : State) : (s.countEncErr).ctr = { s.ctr with nEncErr := incCounter s.cfg.cntW s.ctr.nEncErr } := rfl
@[simp] theorem countEncErr_pbuf (s : State) : (s.countEncErr).pbuf = s.pbuf := rfl
@[simp] theorem countEncErr_pktTx (s : State) : (s.countEncErr).pktTx = s.pktTx := rfl
@[simp] theorem countEncErr_ctrlTx (s : State) : (s.countEncErr).ctrlTx = s.ctrlTx := rfl
@[simp] theorem countEncErr_mapOut (s : State) : (s.countEncErr).mapOut = s.mapOut := rfl
@[simp] theorem countEncErr_dirOut (s : State) : (s.countEncErr).dirOut = s.dirOut := rfl
@[simp] theorem countEncErr_out (s : State) : (s.countEncErr).out = s.out := rfl
@[simp] theorem countEncErr_pktLog (s : State) : (s.countEncErr).pktLog = s.pktLog := rfl
@[simp] theorem countEncErr_ctrlLog (s : State) : (s.countEncErr).ctrlLog = s.ctrlLog := rfl
@[simp] theorem countEncErr_source (s : State) : (s.countEncErr).source = s.source := rfl
@[simp] theorem countEncErr_stopReq (s : State) : (s.countEncErr).stopReq = s.stopReq := rfl
@[simp] theorem countEncErr_agenda (s : State) : (s.countEncErr).agenda = s.agenda := rfl

/-! ### `goto` -/

@[simp] theorem goto_cfg (d : DecState) (s : State) : (s.goto d).cfg = s.cfg := rfl
@[simp] theorem goto_st (d : DecState) (s : State) : (s.goto d).st = d := rfl
@[simp] theorem goto_idx (d : DecState) (s : State) : (s.goto d).idx = s.idx := rfl
@[simp] theorem goto_haltCause (d : DecState) (s : State) : (s.goto d).haltCause = s.haltCause := rfl
@[simp] theorem goto_appId (d : DecState) (s : State) : (s.goto d).appId = s.appId := rfl
@[simp] theorem goto_dlen (d : DecState) (s : State) : (s.goto d).dlen = s.dlen := rfl
@[simp] theorem goto_csum (d : DecState) (s : State) : (s.goto d).csum = s.csum := rfl
@[simp] theorem goto_cnt (d : DecState) (s : State) : (s.goto d).cnt = s.cnt := rfl
@[simp] theorem goto_fcsRx (d : DecState) (s : State) : (s.goto d).fcsRx = s.fcsRx := rfl
@[simp] theorem goto_ctr (d : DecState) (s : State) : (s.goto d).ctr = s.ctr := rfl
@[simp] theorem goto_pbuf (d : DecState) (s : State) : (s.goto d).pbuf = s.pbuf := rfl
@[simp] theorem goto_pktTx (d : DecState) (s : State) : (s.goto d).pktTx = s.pktTx := rfl
@[simp] theorem goto_ctrlTx (d : DecState) (s : State) : (s.goto d).ctrlTx = s.ctrlTx := rfl
@[simp] theorem goto_mapOut (d : DecState) (s : State) : (s.goto d).mapOut = s.mapOut := rfl
@[simp] theorem goto_dirOut (d : DecState) (s : State) : (s.goto d).dirOut = s.dirOut := rfl
@[simp] theorem goto_out (d : DecState) (s : State) : (s.goto d).out = s.out := rfl
@[simp] theorem goto_pktLog (d : DecState) (s : State) : (s.goto d).pktLog = s.pktLog := rfl
@[simp] theorem goto_ctrlLog (d : DecState) (s : State) : (s.goto d).ctrlLog = s.ctrlLog := rfl
@[simp] theorem goto_source (d : DecState) (s : State) : (s.goto d).source = s.source := rfl
@[simp] theorem goto_stopReq (d : DecState) (s : State) : (s.goto d).stopReq = s.stopReq := rfl
@[simp] theorem goto_agenda (d : DecState) (s : State) : (s.goto d).agenda = s.agenda := rfl

/-! ### `emitPacket` -/

@[simp] theorem emitPacket_cfg (p : List Byte) (s : State) : (s.emitPacket p).cfg = s.cfg := rfl
@[simp] theorem emitPacket_st (p : List Byte) (s : State) : (s.emitPacket p).st = s.st := rfl
@[simp] theorem emitPacket_idx (p : List Byte) (s : State) : (s.emitPacket p).idx = s.idx := rfl
@[simp] theorem emitPacket_haltCause (p : List Byte) (s : State) : (s.emitPacket p).haltCause = s.haltCause := rfl
@[simp] theorem emitPacket_appId (p : List Byte) (s : State) : (s.emitPacket p).appId = s.appId := rfl
@[simp] theorem emitPacket_dlen (p : List Byte) (s : State) : (s.emitPacket p).dlen = s.dlen := rfl
@[simp] theorem emitPacket_csum (p : List Byte) (s : State) : (s.emitPacket p).csum = s.csum := rfl
@[simp] theorem emitPacket_cnt (p : List Byte) (s : State) : (s.emitPacket p).cnt = s.cnt := rfl
@[simp] theorem emitPacket_fcsRx (p : List Byte) (s : State) : (s.emitPacket p).fcsRx = s.fcsRx := rfl
@[simp] theorem emitPacket_ctr (p : List Byte) (s : State) : (s.emitPacket p).ctr = s.ctr := rfl
@[simp] theorem emitPacket_pbuf (p : List Byte) (s : State) : (s.emitPacket p).pbuf = s.pbuf := rfl
@[simp] theorem emitPacket_pktTx (p : List Byte) (s : State) : (s.emitPacket p).pktTx = s.pktTx ++ beats p := rfl
@[simp] theorem emitPacket_ctrlTx (p : List Byte) (s : State) : (s.emitPacket p).ctrlTx = s.ctrlTx := rfl
@[simp] theorem emitPacket_mapOut (p : List Byte) (s : State) : (s.emitPacket p).mapOut = s.mapOut := rfl
@[simp] theorem emitPacket_dirOut (p : List Byte) (s : State) : (s.emitPacket p).dirOut = s.dirOut := rfl
@[simp] theorem emitPacket_out (p : List Byte) (s : State) : (s.emitPacket p).out = s.out ++ [.packet p] := rfl
@[simp] theorem emitPacket_pktLog (p : List Byte) (s : State) : (s.emitPacket p).pktLog = s.pktLog := rfl
@[simp] theorem emitPacket_ctrlLog (p : List Byte) (s : State) : (s.emitPacket p).ctrlLog = s.ctrlLog := rfl
@[simp] theorem emitPacket_source (p : List Byte) (s : State) : (s.emitPacket p).source = s.source := rfl
@[simp] theorem emitPacket_stopReq (p : List Byte) (s : State) : (s.emitPacket p).stopReq = s.stopReq := rfl
@[simp] theorem emitPacket_agenda (p : List Byte) (s : State) : (s.emitPacket p).agenda = s.agenda := rfl

/-! ### `lookup` -/

@[simp] theorem lookup_cfg (c : BitVec 4) (s : State) : (s.lookup c).cfg = s.cfg := rfl
@[simp] theorem lookup_st (c : BitVec 4) (s : State) : (s.lookup c).st = s.st := rfl
@[simp] theorem lookup_idx (c : BitVec 4) (s : State) : (s.lookup c).idx = s.idx := rfl
@[simp] theorem lookup_haltCause (c : BitVec 4) (s : State) : (s.lookup c).haltCause = s.haltCause := rfl
@[simp] theorem lookup_appId (c : BitVec 4) (s : State) : (s.lookup c).appId = s.appId := rfl
@[simp] theorem lookup_dlen (c : BitVec 4) (s : State) : (s.lookup c).dlen = s.dlen := rfl
@[simp] theorem lookup_csum (c : BitVec 4) (s : State) : (s.lookup c).csum = s.csum := rfl
@[simp] theorem lookup_cnt (c : BitVec 4) (s : State) : (s.lookup c).cnt = s.cnt := rfl
@[simp] theorem lookup_fcsRx (c : BitVec 4) (s : State) : (s.lookup c).fcsRx = s.fcsRx := rfl
@[simp] theorem lookup_ctr (c : BitVec 4) (s : State) : (s.lookup c).ctr = s.ctr := rfl
@[simp] theorem lookup_pbuf (c : BitVec 4) (s : State) : (s.lookup c).pbuf = s.pbuf := rfl
@[simp] theorem lookup_pktTx (c : BitVec 4) (s : State) : (s.lookup c).pktTx = s.pktTx := rfl
@[simp] theorem lookup_ctrlTx (c : BitVec 4) (s : State) : (s.lookup c).ctrlTx = s.ctrlTx := rfl
@[simp] theorem lookup_mapOut (c : BitVec 4) (s : State) : (s.lookup c).mapOut = mapCode s.cfg c := rfl
@[simp] theorem lookup_dirOut (c : BitVec 4) (s : State) : (s.lookup c).dirOut = s.dirOut := rfl
@[simp] theorem lookup_out (c : BitVec 4) (s : State) : (s.lookup c).out = s.out := rfl
@[simp] theorem lookup_pktLog (c : BitVec 4) (s : State) : (s.lookup c).pktLog = s.pktLog := rfl
@[simp] theorem lookup_ctrlLog (c : BitVec 4) (s : State) : (s.lookup c).ctrlLog = s.ctrlLog := rfl
@[simp] theorem lookup_source (c : BitVec 4) (s : State) : (s.lookup c).source = s.source := rfl
@[simp] theorem lookup_stopReq (c : BitVec 4) (s : State) : (s.lookup c).stopReq = s.stopReq := rfl
@[simp] theorem lookup_agenda (c : BitVec 4) (s : State) : (s.lookup c).agenda = s.agenda := rfl

/-! ### `direction` -/

@[simp] theorem direction_cfg (u : Bool) (s : State) : (s.direction u).cfg = s.cfg := rfl
@[simp] theorem direction_st (u : Bool) (s : State) : (s.direction u).st = s.st := rfl
@[simp] theorem direction_idx (u : Bool) (s : State) : (s.direction u).idx = s.idx := rfl
@[simp] theorem direction_haltCause (u : Bool) (s : State) : (s.direction u).haltCause = s.haltCause := rfl
@[simp] theorem direction_appId (u : Bool) (s : State) : (s.direction u).appId = s.appId := rfl
@[simp] theorem direction_dlen (u : Bool) (s : State) : (s.direction u).dlen = s.dlen := rfl
@[simp] theorem direction_csum (u : Bool) (s : State) : (s.direction u).csum = s.csum := rfl
@[simp] theorem direction_cnt (u : Bool) (s : State) : (s.direction u).cnt = s.cnt := rfl
@[simp] theorem direction_fcsRx (u : Bool) (s : State) : (s.direction u).fcsRx = s.fcsRx := rfl
@[simp] theorem direction_ctr (u : Bool) (s : State) : (s.direction u).ctr = s.ctr := rfl
@[simp] theorem direction_pbuf (u : Bool) (s : State) : (s.direction u).pbuf = s.pbuf := rfl
@[simp] theorem direction_pktTx (u : Bool) (s : State) : (s.direction u).pktTx = s.pktTx := rfl
@[simp] theorem direction_ctrlTx (u : Bool) (s : State) : (s.direction u).ctrlTx = s.ctrlTx := rfl
@[simp] theorem direction_mapOut (u : Bool) (s : State) : (s.direction u).mapOut = s.mapOut := rfl
@[simp] theorem direction_dirOut (u : Bool) (s : State) : (s.direction u).dirOut = u := rfl
@[simp] theorem direction_out (u : Bool) (s : State) : (s.direction u).out = s.out := rfl
@[simp] theorem direction_pktLog (u : Bool) (s : State) : (s.direction u).pktLog = s.pktLog := rfl
@[simp] theorem direction_ctrlLog (u : Bool) (s : State) : (s.direction u).ctrlLog = s.ctrlLog := rfl
@[simp] theorem direction_source (u : Bool) (s : State) : (s.direction u).source = s.source := rfl
@[simp] theorem direction_stopReq (u : Bool) (s : State) : (s.direction u).stopReq = s.stopReq := rfl
@[simp] theorem direction_agenda (u : Bool) (s : State) : (s.direction u).agenda = s.agenda := rfl

/-! ### `setStop` -/

@[simp] theorem setStop_cfg (l : Bool) (s : State) : (s.setStop l).cfg = s.cfg := rfl
@[simp] theorem setStop_st (l : Bool) (s : State) : (s.setStop l).st = s.st := rfl
@[simp] theorem setStop_idx (l : Bool) (s : State) : (s.setStop l).idx = s.idx := rfl
@[simp] theorem setStop_haltCause (l : Bool) (s : State) : (s.setStop l).haltCause = s.haltCause := rfl
@[simp] theorem setStop_appId (l : Bool) (s : State) : (s.setStop l).appId = s.appId := rfl
@[simp] theorem setStop_dlen (l : Bool) (s : State) : (s.setStop l).dlen = s.dlen := rfl
@[simp] theorem setStop_csum (l : Bool) (s : State) : (s.setStop l).csum = s.csum := rfl
@[simp] theorem setStop_cnt (l : Bool) (s : State) : (s.setStop l).cnt = s.cnt := rfl
@[simp] theorem setStop_fcsRx (l : Bool) (s : State) : (s.setStop l).fcsRx = s.fcsRx := rfl
@[simp] theorem setStop_ctr (l : Bool) (s : State) : (s.setStop l).ctr = s.ctr := rfl
@[simp] theorem setStop_pbuf (l : Bool) (s : State) : (s.setStop l).pbuf = s.pbuf := rfl
@[simp] theorem setStop_pktTx (l : Bool) (s : State) : (s.setStop l).pktTx = s.pktTx := rfl
@[simp] theorem setStop_ctrlTx (l : Bool) (s : State) : (s.setStop l).ctrlTx = s.ctrlTx := rfl
@[simp] theorem setStop_mapOut (l : Bool) (s : State) : (s.setStop l).mapOut = s.mapOut := rfl
@[simp] theorem setStop_dirOut (l : Bool) (s : State) : (s.setStop l).dirOut = s.dirOut := rfl
@[simp] theorem setStop_out (l : Bool) (s : State) : (s.setStop l).out = s.out := rfl
@[simp] theorem setStop_pktLog (l : Bool) (s : State) : (s.setStop l).pktLog = s.pktLog := rfl
@[simp] theorem setStop_ctrlLog (l : Bool) (s : State) : (s.setStop l).ctrlLog = s.ctrlLog := rfl
@[simp] theorem setStop_source (l : Bool) (s : State) : (s.setStop l).source = s.source := rfl
@[simp] theorem setStop_stopReq (l : Bool) (s : State) : (s.setStop l).stopReq = l := rfl
@[simp] theorem setStop_agenda (l : Bool) (s : State) : (s.setStop l).agenda = s.agenda := rfl

/-! ### `popAgenda` -/

@[simp] theorem popAgenda_cfg (s : State) : (s.popAgenda).cfg = s.cfg := rfl
@[simp] theorem popAgenda_st (s : State) : (s.popAgenda).st = s.st := rfl
@[simp] theorem popAgenda_idx (s : State) : (s.popAgenda).idx = s.idx := rfl
@[simp] theorem popAgenda_haltCause (s : State) : (s.popAgenda).haltCause = s.haltCause := rfl
@[simp] theorem popAgenda_appId (s : State) : (s.popAgenda).appId = s.appId := rfl
@[simp] theorem popAgenda_dlen (s : State) : (s.popAgenda).dlen = s.dlen := rfl
@[simp] theorem popAgenda_csum (s : State) : (s.popAgenda).csum = s.csum := rfl
@[simp] theorem popAgenda_cnt (s : State) : (s.popAgenda).cnt = s.cnt := rfl
@[simp] theorem popAgenda_fcsRx (s : State) : (s.popAgenda).fcsRx = s.fcsRx := rfl
@[simp] theorem popAgenda_ctr (s : State) : (s.popAgenda).ctr = s.ctr := rfl
@[simp] theorem popAgenda_pbuf (s : State) : (s.popAgenda).pbuf = s.pbuf := rfl
@[simp] theorem popAgenda_pktTx (s : State) : (s.popAgenda).pktTx = s.pktTx := rfl
@[simp] theorem popAgenda_ctrlTx (s : State) : (s.popAgenda).ctrlTx = s.ctrlTx := rfl
@[simp] theorem popAgenda_mapOut (s : State) : (s.popAgenda).mapOut = s.mapOut := rfl
@[simp] theorem popAgenda_dirOut (s : State) : (s.popAgenda).dirOut = s.dirOut := rfl
@[simp] theorem popAgenda_out (s : State) : (s.popAgenda).out = s.out := rfl
@[simp] theorem popAgenda_pktLog (s : State) : (s.popAgenda).pktLog = s.pktLog := rfl
@[simp] theorem popAgenda_ctrlLog (s : State) : (s.popAgenda).ctrlLog = s.ctrlLog := rfl
@[simp] theorem popAgenda_source (s : State) : (s.popAgenda).source = s.source := rfl
@[simp] theorem popAgenda_stopReq (s : State) : (s.popAgenda).stopReq = s.stopReq := rfl
@[simp] theorem popAgenda_agenda (s : State) : (s.popAgenda).agenda = s.agenda.tail := rfl

/-! ### `haltWith` -/

@[simp] theorem haltWith_cfg (c : HaltCause) (o : CycleOutcome) (s : State) :
    (haltWith c o s).cfg = s.cfg := rfl
@[simp] theorem haltWith_st (c : HaltCause) (o : CycleOutcome) (s : State) :
    (haltWith c o s).st = .halted := rfl
@[simp] theorem haltWith_idx (c : HaltCause) (o : CycleOutcome) (s : State) :
    (haltWith c o s).idx = s.idx := rfl
@[simp] theorem haltWith_haltCause (c : HaltCause) (o : CycleOutcome) (s : State) :
    (haltWith c o s).haltCause = c := rfl
@[simp] theorem haltWith_appId (c : HaltCause) (o : CycleOutcome) (s : State) :
    (haltWith c o s).appId = s.appId := rfl
@[simp] theorem haltWith_dlen (c : HaltCause) (o : CycleOutcome) (s : State) :
    (haltWith c o s).dlen = s.dlen := rfl
@[simp] theorem haltWith_csum (c : HaltCause) (o : CycleOutcome) (s : State) :
    (haltWith c o s).csum = s.csum := rfl
@[simp] theorem haltWith_cnt (c : HaltCause) (o : CycleOutcome) (s : State) :
    (haltWith c o s).cnt = s.cnt := rfl
@[simp] theorem haltWith_fcsRx (c : HaltCause) (o : CycleOutcome) (s : State) :
    (haltWith c o s).fcsRx = s.fcsRx := rfl
@[simp] theorem haltWith_ctr (c : HaltCause) (o : CycleOutcome) (s : State) :
    (haltWith c o s).ctr = s.ctr := rfl
@[simp] theorem haltWith_pbuf (c : HaltCause) (o : CycleOutcome) (s : State) :
    (haltWith c o s).pbuf = s.pbuf := rfl
@[simp] theorem haltWith_pktTx (c : HaltCause) (o : CycleOutcome) (s : State) :
    (haltWith c o s).pktTx = s.pktTx := rfl
@[simp] theorem haltWith_ctrlTx (c : HaltCause) (o : CycleOutcome) (s : State) :
    (haltWith c o s).ctrlTx = s.ctrlTx := rfl
@[simp] theorem haltWith_mapOut (c : HaltCause) (o : CycleOutcome) (s : State) :
    (haltWith c o s).mapOut = s.mapOut := rfl
@[simp] theorem haltWith_dirOut (c : HaltCause) (o : CycleOutcome) (s : State) :
    (haltWith c o s).dirOut = s.dirOut := rfl
@[simp] theorem haltWith_out (c : HaltCause) (o : CycleOutcome) (s : State) :
    (haltWith c o s).out = s.out ++ [.outcome o] := rfl
@[simp] theorem haltWith_pktLog (c : HaltCause) (o : CycleOutcome) (s : State) :
    (haltWith c o s).pktLog = s.pktLog := rfl
@[simp] theorem haltWith_ctrlLog (c : HaltCause) (o : CycleOutcome) (s : State) :
    (haltWith c o s).ctrlLog = s.ctrlLog := rfl
@[simp] theorem haltWith_source (c : HaltCause) (o : CycleOutcome) (s : State) :
    (haltWith c o s).source = s.source := rfl
@[simp] theorem haltWith_stopReq (c : HaltCause) (o : CycleOutcome) (s : State) :
    (haltWith c o s).stopReq = s.stopReq := rfl
@[simp] theorem haltWith_agenda (c : HaltCause) (o : CycleOutcome) (s : State) :
    (haltWith c o s).agenda = s.agenda := rfl

/-! ### `filterFrame` -/

@[simp] theorem filterFrame_cfg (s : State) : (filterFrame s).cfg = s.cfg := rfl
@[simp] theorem filterFrame_st (s : State) : (filterFrame s).st = .awaitStart := rfl
@[simp] theorem filterFrame_idx (s : State) : (filterFrame s).idx = s.idx := rfl
@[simp] theorem filterFrame_haltCause (s : State) : (filterFrame s).haltCause = s.haltCause := rfl
@[simp] theorem filterFrame_appId (s : State) : (filterFrame s).appId = s.appId := rfl
@[simp] theorem filterFrame_dlen (s : State) : (filterFrame s).dlen = s.dlen := rfl
@[simp] theorem filterFrame_csum (s : State) : (filterFrame s).csum = s.csum := rfl
@[simp] theorem filterFrame_cnt (s : State) : (filterFrame s).cnt = s.cnt := rfl
@[simp] theorem filterFrame_fcsRx (s : State) : (filterFrame s).fcsRx = s.fcsRx := rfl
@[simp] theorem filterFrame_ctr (s : State) : (filterFrame s).ctr = { s.ctr with nFiltered := incCounter s.cfg.cntW s.ctr.nFiltered } := rfl
@[simp] theorem filterFrame_pbuf (s : State) : (filterFrame s).pbuf = s.pbuf := rfl
@[simp] theorem filterFrame_pktTx (s : State) : (filterFrame s).pktTx = s.pktTx := rfl
@[simp] theorem filterFrame_ctrlTx (s : State) : (filterFrame s).ctrlTx = s.ctrlTx := rfl
@[simp] theorem filterFrame_mapOut (s : State) : (filterFrame s).mapOut = s.mapOut := rfl
@[simp] theorem filterFrame_dirOut (s : State) : (filterFrame s).dirOut = s.dirOut := rfl
@[simp] theorem filterFrame_out (s : State) : (filterFrame s).out = s.out ++ [.outcome .filteredAppId] := rfl
@[simp] theorem filterFrame_pktLog (s : State) : (filterFrame s).pktLog = s.pktLog := rfl
@[simp] theorem filterFrame_ctrlLog (s : State) : (filterFrame s).ctrlLog = s.ctrlLog := rfl
@[simp] theorem filterFrame_source (s : State) : (filterFrame s).source = s.source := rfl
@[simp] theorem filterFrame_stopReq (s : State) : (filterFrame s).stopReq = s.stopReq := rfl
@[simp] theorem filterFrame_agenda (s : State) : (filterFrame s).agenda = s.agenda := rfl

/-! ### `raiseError`: everything but the counters, by one case split -/

@[simp] theorem raiseError_cfg (e : FrameError) (s : State) : (raiseError e s).cfg = s.cfg := by
  cases e <;> rfl
@[simp] theorem raiseError_st (e : FrameError) (s : State) : (raiseError e s).st = .awaitStart := by
  cases e <;> rfl
@[simp] theorem raiseError_idx (e : FrameError) (s : State) : (raiseError e s).idx = s.idx := by
  cases e <;> rfl
@[simp] theorem raiseError_haltCause (e : FrameError) (s : State) : (raiseError e s).haltCause = s.haltCause := by
  cases e <;> rfl
@[simp] theorem raiseError_appId (e : FrameError) (s : State) : (raiseError e s).appId = s.appId := by
  cases e <;> rfl
@[simp] theorem raiseError_dlen (e : FrameError) (s : State) : (raiseError e s).dlen = s.dlen := by
  cases e <;> rfl
@[simp] theorem raiseError_csum (e : FrameError) (s : State) : (raiseError e s).csum = s.csum := by
  cases e <;> rfl
@[simp] theorem raiseError_cnt (e : FrameError) (s : State) : (raiseError e s).cnt = s.cnt := by
  cases e <;> rfl
@[simp] theorem raiseError_fcsRx (e : FrameError) (s : State) : (raiseError e s).fcsRx = s.fcsRx := by
  cases e <;> rfl
@[simp] theorem raiseError_pbuf (e : FrameError) (s : State) : (raiseError e s).pbuf = s.pbuf := by
  cases e <;> rfl
@[simp] theorem raiseError_pktTx (e : FrameError) (s : State) : (raiseError e s).pktTx = s.pktTx := by
  cases e <;> rfl
@[simp] theorem raiseError_ctrlTx (e : FrameError) (s : State) : (raiseError e s).ctrlTx = s.ctrlTx := by
  cases e <;> rfl
@[simp] theorem raiseError_mapOut (e : FrameError) (s : State) : (raiseError e s).mapOut = s.mapOut := by
  cases e <;> rfl
@[simp] theorem raiseError_dirOut (e : FrameError) (s : State) : (raiseError e s).dirOut = s.dirOut := by
  cases e <;> rfl
@[simp] theorem raiseError_out (e : FrameError) (s : State) : (raiseError e s).out = s.out ++ [.outcome (errorOutcome e)] := by
  cases e <;> rfl
@[simp] theorem raiseError_pktLog (e : FrameError) (s : State) : (raiseError e s).pktLog = s.pktLog := by
  cases e <;> rfl
@[simp] theorem raiseError_ctrlLog (e : FrameError) (s : State) : (raiseError e s).ctrlLog = s.ctrlLog := by
  cases e <;> rfl
@[simp] theorem raiseError_source (e : FrameError) (s : State) : (raiseError e s).source = s.source := by
  cases e <;> rfl
@[simp] theorem raiseError_stopReq (e : FrameError) (s : State) : (raiseError e s).stopReq = s.stopReq := by
  cases e <;> rfl
@[simp] theorem raiseError_agenda (e : FrameError) (s : State) : (raiseError e s).agenda = s.agenda := by
  cases e <;> rfl

/-- The counters `raise` touches (60_exceptions.md R220). -/
theorem raiseError_ctr (e : FrameError) (s : State) :
    (raiseError e s).ctr =
      { s.ctr with
        nErr := incCounter s.cfg.cntW s.ctr.nErr
        nCksum := if e = .checksumMismatch then incCounter s.cfg.cntW s.ctr.nCksum
          else s.ctr.nCksum } := by
  cases e <;> rfl

/-! ### `applyReset` -/

@[simp] theorem applyReset_cfg (s : State) : (s.applyReset).cfg = s.cfg := rfl
@[simp] theorem applyReset_st (s : State) : (s.applyReset).st = .awaitStart := rfl
@[simp] theorem applyReset_idx (s : State) : (s.applyReset).idx = 0 := rfl
@[simp] theorem applyReset_haltCause (s : State) : (s.applyReset).haltCause = .none := rfl
@[simp] theorem applyReset_appId (s : State) : (s.applyReset).appId = s.appId := rfl
@[simp] theorem applyReset_dlen (s : State) : (s.applyReset).dlen = s.dlen := rfl
@[simp] theorem applyReset_csum (s : State) : (s.applyReset).csum = s.csum := rfl
@[simp] theorem applyReset_cnt (s : State) : (s.applyReset).cnt = s.cnt := rfl
@[simp] theorem applyReset_fcsRx (s : State) : (s.applyReset).fcsRx = s.fcsRx := rfl
@[simp] theorem applyReset_ctr (s : State) : (s.applyReset).ctr = ⟨0, 0, 0, 0, 0⟩ := rfl
@[simp] theorem applyReset_pbuf (s : State) : (s.applyReset).pbuf = s.pbuf := rfl
@[simp] theorem applyReset_pktTx (s : State) : (s.applyReset).pktTx = [] := rfl
@[simp] theorem applyReset_ctrlTx (s : State) : (s.applyReset).ctrlTx = [] := rfl
@[simp] theorem applyReset_mapOut (s : State) : (s.applyReset).mapOut = ⟨false, .unknown⟩ := rfl
@[simp] theorem applyReset_dirOut (s : State) : (s.applyReset).dirOut = false := rfl
@[simp] theorem applyReset_out (s : State) : (s.applyReset).out = s.out := rfl
@[simp] theorem applyReset_pktLog (s : State) : (s.applyReset).pktLog = s.pktLog := rfl
@[simp] theorem applyReset_ctrlLog (s : State) : (s.applyReset).ctrlLog = s.ctrlLog := rfl
@[simp] theorem applyReset_source (s : State) : (s.applyReset).source = s.source := rfl
@[simp] theorem applyReset_stopReq (s : State) : (s.applyReset).stopReq = s.stopReq := rfl
@[simp] theorem applyReset_agenda (s : State) : (s.applyReset).agenda = s.agenda := rfl

/-! ### `takeBeat`, `takePkt`, `takeCtrl`, `requestControl` -/

@[simp] theorem takeBeat_cfg (s : State) : (s.takeBeat).cfg = s.cfg := by
  unfold State.takeBeat; split <;> rfl
@[simp] theorem takeBeat_st (s : State) : (s.takeBeat).st = s.st := by
  unfold State.takeBeat; split <;> rfl
@[simp] theorem takeBeat_idx (s : State) : (s.takeBeat).idx = s.idx := by
  unfold State.takeBeat; split <;> rfl
@[simp] theorem takeBeat_haltCause (s : State) : (s.takeBeat).haltCause = s.haltCause := by
  unfold State.takeBeat; split <;> rfl
@[simp] theorem takeBeat_appId (s : State) : (s.takeBeat).appId = s.appId := by
  unfold State.takeBeat; split <;> rfl
@[simp] theorem takeBeat_dlen (s : State) : (s.takeBeat).dlen = s.dlen := by
  unfold State.takeBeat; split <;> rfl
@[simp] theorem takeBeat_csum (s : State) : (s.takeBeat).csum = s.csum := by
  unfold State.takeBeat; split <;> rfl
@[simp] theorem takeBeat_cnt (s : State) : (s.takeBeat).cnt = s.cnt := by
  unfold State.takeBeat; split <;> rfl
@[simp] theorem takeBeat_fcsRx (s : State) : (s.takeBeat).fcsRx = s.fcsRx := by
  unfold State.takeBeat; split <;> rfl
@[simp] theorem takeBeat_ctr (s : State) : (s.takeBeat).ctr = s.ctr := by
  unfold State.takeBeat; split <;> rfl
@[simp] theorem takeBeat_pbuf (s : State) : (s.takeBeat).pbuf = s.pbuf := by
  unfold State.takeBeat; split <;> rfl
@[simp] theorem takeBeat_pktTx (s : State) : (s.takeBeat).pktTx = s.pktTx := by
  unfold State.takeBeat; split <;> rfl
@[simp] theorem takeBeat_ctrlTx (s : State) : (s.takeBeat).ctrlTx = s.ctrlTx := by
  unfold State.takeBeat; split <;> rfl
@[simp] theorem takeBeat_mapOut (s : State) : (s.takeBeat).mapOut = s.mapOut := by
  unfold State.takeBeat; split <;> rfl
@[simp] theorem takeBeat_dirOut (s : State) : (s.takeBeat).dirOut = s.dirOut := by
  unfold State.takeBeat; split <;> rfl
@[simp] theorem takeBeat_out (s : State) : (s.takeBeat).out = s.out := by
  unfold State.takeBeat; split <;> rfl
@[simp] theorem takeBeat_pktLog (s : State) : (s.takeBeat).pktLog = s.pktLog := by
  unfold State.takeBeat; split <;> rfl
@[simp] theorem takeBeat_ctrlLog (s : State) : (s.takeBeat).ctrlLog = s.ctrlLog := by
  unfold State.takeBeat; split <;> rfl
@[simp] theorem takeBeat_stopReq (s : State) : (s.takeBeat).stopReq = s.stopReq := by
  unfold State.takeBeat; split <;> rfl
@[simp] theorem takeBeat_agenda (s : State) : (s.takeBeat).agenda = s.agenda := by
  unfold State.takeBeat; split <;> rfl
@[simp] theorem takePkt_cfg (s : State) : (s.takePkt).cfg = s.cfg := by
  unfold State.takePkt; split <;> rfl
@[simp] theorem takePkt_st (s : State) : (s.takePkt).st = s.st := by
  unfold State.takePkt; split <;> rfl
@[simp] theorem takePkt_idx (s : State) : (s.takePkt).idx = s.idx := by
  unfold State.takePkt; split <;> rfl
@[simp] theorem takePkt_haltCause (s : State) : (s.takePkt).haltCause = s.haltCause := by
  unfold State.takePkt; split <;> rfl
@[simp] theorem takePkt_appId (s : State) : (s.takePkt).appId = s.appId := by
  unfold State.takePkt; split <;> rfl
@[simp] theorem takePkt_dlen (s : State) : (s.takePkt).dlen = s.dlen := by
  unfold State.takePkt; split <;> rfl
@[simp] theorem takePkt_csum (s : State) : (s.takePkt).csum = s.csum := by
  unfold State.takePkt; split <;> rfl
@[simp] theorem takePkt_cnt (s : State) : (s.takePkt).cnt = s.cnt := by
  unfold State.takePkt; split <;> rfl
@[simp] theorem takePkt_fcsRx (s : State) : (s.takePkt).fcsRx = s.fcsRx := by
  unfold State.takePkt; split <;> rfl
@[simp] theorem takePkt_ctr (s : State) : (s.takePkt).ctr = s.ctr := by
  unfold State.takePkt; split <;> rfl
@[simp] theorem takePkt_pbuf (s : State) : (s.takePkt).pbuf = s.pbuf := by
  unfold State.takePkt; split <;> rfl
@[simp] theorem takePkt_ctrlTx (s : State) : (s.takePkt).ctrlTx = s.ctrlTx := by
  unfold State.takePkt; split <;> rfl
@[simp] theorem takePkt_mapOut (s : State) : (s.takePkt).mapOut = s.mapOut := by
  unfold State.takePkt; split <;> rfl
@[simp] theorem takePkt_dirOut (s : State) : (s.takePkt).dirOut = s.dirOut := by
  unfold State.takePkt; split <;> rfl
@[simp] theorem takePkt_out (s : State) : (s.takePkt).out = s.out := by
  unfold State.takePkt; split <;> rfl
@[simp] theorem takePkt_ctrlLog (s : State) : (s.takePkt).ctrlLog = s.ctrlLog := by
  unfold State.takePkt; split <;> rfl
@[simp] theorem takePkt_source (s : State) : (s.takePkt).source = s.source := by
  unfold State.takePkt; split <;> rfl
@[simp] theorem takePkt_stopReq (s : State) : (s.takePkt).stopReq = s.stopReq := by
  unfold State.takePkt; split <;> rfl
@[simp] theorem takePkt_agenda (s : State) : (s.takePkt).agenda = s.agenda := by
  unfold State.takePkt; split <;> rfl
@[simp] theorem takeCtrl_cfg (s : State) : (s.takeCtrl).cfg = s.cfg := by
  unfold State.takeCtrl; split <;> rfl
@[simp] theorem takeCtrl_st (s : State) : (s.takeCtrl).st = s.st := by
  unfold State.takeCtrl; split <;> rfl
@[simp] theorem takeCtrl_idx (s : State) : (s.takeCtrl).idx = s.idx := by
  unfold State.takeCtrl; split <;> rfl
@[simp] theorem takeCtrl_haltCause (s : State) : (s.takeCtrl).haltCause = s.haltCause := by
  unfold State.takeCtrl; split <;> rfl
@[simp] theorem takeCtrl_appId (s : State) : (s.takeCtrl).appId = s.appId := by
  unfold State.takeCtrl; split <;> rfl
@[simp] theorem takeCtrl_dlen (s : State) : (s.takeCtrl).dlen = s.dlen := by
  unfold State.takeCtrl; split <;> rfl
@[simp] theorem takeCtrl_csum (s : State) : (s.takeCtrl).csum = s.csum := by
  unfold State.takeCtrl; split <;> rfl
@[simp] theorem takeCtrl_cnt (s : State) : (s.takeCtrl).cnt = s.cnt := by
  unfold State.takeCtrl; split <;> rfl
@[simp] theorem takeCtrl_fcsRx (s : State) : (s.takeCtrl).fcsRx = s.fcsRx := by
  unfold State.takeCtrl; split <;> rfl
@[simp] theorem takeCtrl_ctr (s : State) : (s.takeCtrl).ctr = s.ctr := by
  unfold State.takeCtrl; split <;> rfl
@[simp] theorem takeCtrl_pbuf (s : State) : (s.takeCtrl).pbuf = s.pbuf := by
  unfold State.takeCtrl; split <;> rfl
@[simp] theorem takeCtrl_pktTx (s : State) : (s.takeCtrl).pktTx = s.pktTx := by
  unfold State.takeCtrl; split <;> rfl
@[simp] theorem takeCtrl_mapOut (s : State) : (s.takeCtrl).mapOut = s.mapOut := by
  unfold State.takeCtrl; split <;> rfl
@[simp] theorem takeCtrl_dirOut (s : State) : (s.takeCtrl).dirOut = s.dirOut := by
  unfold State.takeCtrl; split <;> rfl
@[simp] theorem takeCtrl_out (s : State) : (s.takeCtrl).out = s.out := by
  unfold State.takeCtrl; split <;> rfl
@[simp] theorem takeCtrl_pktLog (s : State) : (s.takeCtrl).pktLog = s.pktLog := by
  unfold State.takeCtrl; split <;> rfl
@[simp] theorem takeCtrl_source (s : State) : (s.takeCtrl).source = s.source := by
  unfold State.takeCtrl; split <;> rfl
@[simp] theorem takeCtrl_stopReq (s : State) : (s.takeCtrl).stopReq = s.stopReq := by
  unfold State.takeCtrl; split <;> rfl
@[simp] theorem takeCtrl_agenda (s : State) : (s.takeCtrl).agenda = s.agenda := by
  unfold State.takeCtrl; split <;> rfl
@[simp] theorem requestControl_cfg (e : Bool) (s : State) : (s.requestControl e).cfg = s.cfg := by
  unfold State.requestControl; split <;> rfl
@[simp] theorem requestControl_st (e : Bool) (s : State) : (s.requestControl e).st = s.st := by
  unfold State.requestControl; split <;> rfl
@[simp] theorem requestControl_idx (e : Bool) (s : State) : (s.requestControl e).idx = s.idx := by
  unfold State.requestControl; split <;> rfl
@[simp] theorem requestControl_haltCause (e : Bool) (s : State) : (s.requestControl e).haltCause = s.haltCause := by
  unfold State.requestControl; split <;> rfl
@[simp] theorem requestControl_appId (e : Bool) (s : State) : (s.requestControl e).appId = s.appId := by
  unfold State.requestControl; split <;> rfl
@[simp] theorem requestControl_dlen (e : Bool) (s : State) : (s.requestControl e).dlen = s.dlen := by
  unfold State.requestControl; split <;> rfl
@[simp] theorem requestControl_csum (e : Bool) (s : State) : (s.requestControl e).csum = s.csum := by
  unfold State.requestControl; split <;> rfl
@[simp] theorem requestControl_cnt (e : Bool) (s : State) : (s.requestControl e).cnt = s.cnt := by
  unfold State.requestControl; split <;> rfl
@[simp] theorem requestControl_fcsRx (e : Bool) (s : State) : (s.requestControl e).fcsRx = s.fcsRx := by
  unfold State.requestControl; split <;> rfl
@[simp] theorem requestControl_ctr (e : Bool) (s : State) : (s.requestControl e).ctr = s.ctr := by
  unfold State.requestControl; split <;> rfl
@[simp] theorem requestControl_pbuf (e : Bool) (s : State) : (s.requestControl e).pbuf = s.pbuf := by
  unfold State.requestControl; split <;> rfl
@[simp] theorem requestControl_pktTx (e : Bool) (s : State) : (s.requestControl e).pktTx = s.pktTx := by
  unfold State.requestControl; split <;> rfl
@[simp] theorem requestControl_mapOut (e : Bool) (s : State) : (s.requestControl e).mapOut = s.mapOut := by
  unfold State.requestControl; split <;> rfl
@[simp] theorem requestControl_dirOut (e : Bool) (s : State) : (s.requestControl e).dirOut = s.dirOut := by
  unfold State.requestControl; split <;> rfl
@[simp] theorem requestControl_out (e : Bool) (s : State) : (s.requestControl e).out = s.out := by
  unfold State.requestControl; split <;> rfl
@[simp] theorem requestControl_pktLog (e : Bool) (s : State) : (s.requestControl e).pktLog = s.pktLog := by
  unfold State.requestControl; split <;> rfl
@[simp] theorem requestControl_ctrlLog (e : Bool) (s : State) : (s.requestControl e).ctrlLog = s.ctrlLog := by
  unfold State.requestControl; split <;> rfl
@[simp] theorem requestControl_source (e : Bool) (s : State) : (s.requestControl e).source = s.source := by
  unfold State.requestControl; split <;> rfl
@[simp] theorem requestControl_stopReq (e : Bool) (s : State) : (s.requestControl e).stopReq = s.stopReq := by
  unfold State.requestControl; split <;> rfl
@[simp] theorem requestControl_agenda (e : Bool) (s : State) : (s.requestControl e).agenda = s.agenda := by
  unfold State.requestControl; split <;> rfl

theorem takeBeat_source (s : State) :
    s.takeBeat.source = if s.rxReady then s.source.tail else s.source := by
  unfold State.takeBeat; split <;> rfl

/-- Taking moves the first beat from the serialiser to the record: nothing is lost or reordered. -/
theorem takePkt_stream (s : State) : s.takePkt.pktLog ++ s.takePkt.pktTx = s.pktLog ++ s.pktTx := by
  unfold State.takePkt
  split
  · rfl
  · next b rest h => simp [h]

theorem takeCtrl_stream (s : State) :
    s.takeCtrl.ctrlLog ++ s.takeCtrl.ctrlTx = s.ctrlLog ++ s.ctrlTx := by
  unfold State.takeCtrl
  split
  · rfl
  · next b rest h => simp [h]

/-- A taking removes exactly the offered beat. -/
theorem takePkt_pktTx (s : State) : s.takePkt.pktTx = s.pktTx.tail := by
  unfold State.takePkt
  split
  · next h => simp [h]
  · next h => simp [h]

theorem takeCtrl_ctrlTx (s : State) : s.takeCtrl.ctrlTx = s.ctrlTx.tail := by
  unfold State.takeCtrl
  split
  · next h => simp [h]
  · next h => simp [h]

/-- A control request loads the idle serialiser and is ignored by a busy one (10_state.md R36). -/
theorem requestControl_ctrlTx (enable : Bool) (s : State) :
    (s.requestControl enable).ctrlTx =
      if s.ctrlTx = [] then beats (buildControl enable) else s.ctrlTx := by
  unfold State.requestControl
  split <;> rfl

end Sys2Proof.Machine
end

