-- ==== Sys2Proof/Laws/Step.lean ====
section
/-! SUPPORT. Everything a handled event can do, said once (the transition summary of 41_frame_decoder.md
R129 as an inductive predicate), and what a step of the machine is for each act. Proofs about events and
steps take these apart instead of unfolding the meanings. -/

namespace Sys2Proof.Machine

theorem whenSelected_next {c : Bool} {k : Answer} {t : State} :
    whenSelected c k = .next t ↔ c = true ∧ k = .next t := by
  cases c <;> simp [whenSelected]

/-- The state after the four register writes of RH.LENLO (41_frame_decoder.md R117). -/
def afterLenLo (s : State) (b : Byte) : State :=
  { s with dlen := dlenWithLo s.dlen b, csum := fold s.csum b, cnt := 0, idx := 0 }

/-- The state after RP.DATA's writes, the position apart (41_frame_decoder.md R119). -/
def afterData (s : State) (b : Byte) : State :=
  { s with pbuf := memStore s.pbuf s.cnt.toNat b, csum := fold s.csum b, cnt := s.cnt + 1 }

/-- One handled event: its rule, and the whole next state (41_frame_decoder.md R129). -/
inductive EventStep : Event → State → State → Prop
  | skip {s b} : s.st = .awaitStart → b ≠ stx → EventStep (.byte b) s s
  | start {s} : s.st = .awaitStart →
      EventStep (.byte stx) s { s with st := .readHeader, idx := 0 }
  | appid {s b} : s.st = .readHeader → s.idx = 0 →
      EventStep (.byte b) s { s with appId := b, csum := fold 0 b, idx := 1 }
  | lenhi {s b} : s.st = .readHeader → s.idx = 1 →
      EventStep (.byte b) s { s with dlen := dlenFromHi b, csum := fold s.csum b, idx := 2 }
  | oversize {s b} : s.st = .readHeader → s.idx = 2 → oversize (dlenWithLo s.dlen b) = true →
      EventStep (.byte b) s (raiseError .oversizeLength (afterLenLo s b))
  | empty {s b} : s.st = .readHeader → s.idx = 2 → Machine.oversize (dlenWithLo s.dlen b) = false →
      emptyLength (dlenWithLo s.dlen b) = true →
      EventStep (.byte b) s ((afterLenLo s b).goto .readTrailer)
  | payload {s b} : s.st = .readHeader → s.idx = 2 →
      Machine.oversize (dlenWithLo s.dlen b) = false → emptyLength (dlenWithLo s.dlen b) = false →
      EventStep (.byte b) s ((afterLenLo s b).goto .readPayload)
  | data {s b} : s.st = .readPayload → payloadPosition s = true → lastPayload s = false →
      EventStep (.byte b) s (afterData s b)
  | lastData {s b} : s.st = .readPayload → payloadPosition s = true → lastPayload s = true →
      EventStep (.byte b) s { afterData s b with st := .readTrailer, idx := 0 }
  | fcs {s b} : s.st = .readTrailer → s.idx = 0 →
      EventStep (.byte b) s { s with fcsRx := b, idx := 1 }
  | badEtx {s b} : s.st = .readTrailer → s.idx = 1 → b ≠ etx →
      EventStep (.byte b) s (raiseError .wrongTerminator { s with idx := 0 })
  | mismatch {s} : s.st = .readTrailer → s.idx = 1 → fcsOk s = false →
      EventStep (.byte etx) s (raiseError .checksumMismatch { s with idx := 0 })
  | filtered {s} : s.st = .readTrailer → s.idx = 1 → fcsOk s = true → traceApp s = false →
      EventStep (.byte etx) s (filterFrame { s with idx := 0 })
  | dispatch {s f} : s.st = .readTrailer → s.idx = 1 → fcsOk s = true → traceApp s = true →
      readFrame s = .ok f → EventStep (.byte etx) s (dispatchFrame f { s with idx := 0 })
  | retry {s} : s.st ≠ .halted → positionReject s.st s.idx = none → EventStep .retry s s
  | eos {s} : s.st ≠ .halted → positionReject s.st s.idx = none →
      EventStep .endOfStream s (haltWith .endOfStream .ioFatalEndOfStream s)
  | fatal {s} : s.st ≠ .halted → positionReject s.st s.idx = none →
      EventStep .fatal s (haltWith .fatal .ioFatalFatal s)
  | stop {s} : s.st ≠ .halted → positionReject s.st s.idx = none →
      EventStep .stop s (haltWith .stopped .stopped s)
  | ignored {s e} : s.st = .halted → EventStep e s s

/-- Handling an event is decoding it at the position and executing what it is. -/
theorem handleEvent_eq (e : Event) (s : State) :
    handleEvent e s =
      match decodeEvent s.st s.idx e with
      | .ok i => exec i s
      | .error r => .refused (rejectRefusal r) := by
  have h : decode (s.positionWord (eventPort e)) = decodeEvent s.st s.idx e := by
    simp [State.positionWord, decode]
  cases hd : decodeEvent s.st s.idx e <;> simp [handleEvent, runWord, h, hd]

/-- The decoder's turn with no packet being sent handles the event the ports stand for. -/
theorem rxTurn_eq {s : State} (h : s.pktTx = []) :
    rxTurn s = handleEvent (portEvent s.sample) s.takeBeat := by
  simp [rxTurn, State.busy, h, handleEvent, runWord, State.positionWord, decode]

theorem rxTurn_busy {s : State} (h : s.pktTx ≠ []) : rxTurn s = .next s := by
  simp [rxTurn, State.busy, h]

theorem execRpData_next {b : Byte} {s t : State} (h : execRpData b s = .next t) :
    s.st = .readPayload ∧ payloadPosition s = true ∧
      t = if lastPayload s then { afterData s b with st := .readTrailer, idx := 0 }
        else afterData s b := by
  obtain ⟨hst, h⟩ := whenSelected_next.1 h
  split at h
  · next hp =>
    split at h
    · cases h
    · next m hm =>
      obtain ⟨-, rfl⟩ := memWrite_ok hm
      refine ⟨by simpa using hst, hp, ?_⟩
      simpa [afterData] using h.symm
  · cases h

theorem execRtEtx_next {s t : State} (h : execRtEtx s = .next t) :
    s.st = .readTrailer ∧ s.idx = 1 ∧
      ((fcsOk s = false ∧ t = raiseError .checksumMismatch { s with idx := 0 }) ∨
       (fcsOk s = true ∧ traceApp s = false ∧ t = filterFrame { s with idx := 0 }) ∨
       (fcsOk s = true ∧ traceApp s = true ∧
        ∃ f, readFrame s = .ok f ∧ t = dispatchFrame f { s with idx := 0 })) := by
  obtain ⟨hsel, h⟩ := whenSelected_next.1 h
  simp only [Bool.and_eq_true, decide_eq_true_eq] at hsel
  refine ⟨hsel.1, hsel.2, ?_⟩
  cases hf : fcsOk s <;> cases ha : traceApp s
  · left; simpa [hf] using h.symm
  · left; simpa [hf] using h.symm
  · right; left; simpa [hf, ha] using h.symm
  · right; right
    refine ⟨rfl, rfl, ?_⟩
    simp only [hf, ha, Bool.not_true, Bool.false_eq_true, if_false] at h
    split at h
    · cases h
    · next f hr => exact ⟨f, hr, by simpa using h.symm⟩

/-- Everything a handled event can do. -/
theorem handleEvent_next {e : Event} {s t : State} (h : handleEvent e s = .next t) :
    EventStep e s t := by
  rw [handleEvent_eq] at h
  split at h
  · next i hi =>
    unfold decodeEvent at hi
    split at hi
    · cases hi
    next hr =>
    split at hi
    · next hst =>
      cases hi
      obtain ⟨-, h⟩ := whenSelected_next.1 h
      cases h
      exact .ignored hst
    · next hst =>
      cases e with
      | retry =>
        cases hi
        obtain ⟨-, h⟩ := whenSelected_next.1 h
        cases h
        exact .retry hst hr
      | endOfStream =>
        cases hi
        obtain ⟨-, h⟩ := whenSelected_next.1 h
        cases h
        exact .eos hst hr
      | fatal =>
        cases hi
        obtain ⟨-, h⟩ := whenSelected_next.1 h
        cases h
        exact .fatal hst hr
      | stop =>
        cases hi
        obtain ⟨-, h⟩ := whenSelected_next.1 h
        cases h
        exact .stop hst hr
      | byte b =>
        cases hs : s.st with
        | halted => exact absurd hs hst
        | awaitStart =>
          simp only [hs, decodeByte] at hi
          split at hi
          · next hb =>
            subst hb
            cases hi
            obtain ⟨-, h⟩ := whenSelected_next.1 h
            cases h
            exact .start hs
          · next hb =>
            cases hi
            obtain ⟨-, h⟩ := whenSelected_next.1 h
            cases h
            exact .skip hs hb
        | readHeader =>
          simp only [hs, decodeByte] at hi
          split at hi
          · next hx =>
            cases hi
            obtain ⟨-, h⟩ := whenSelected_next.1 h
            cases h
            exact .appid hs hx
          · split at hi
            · next hx =>
              cases hi
              obtain ⟨-, h⟩ := whenSelected_next.1 h
              cases h
              exact .lenhi hs hx
            · split at hi
              · next hx =>
                cases hi
                obtain ⟨-, h⟩ := whenSelected_next.1 h
                cases ho : oversize (dlenWithLo s.dlen b) <;>
                  cases he : emptyLength (dlenWithLo s.dlen b) <;>
                  simp only [ho, he, Bool.false_eq_true, if_false, if_true] at h <;> cases h
                · exact .payload hs hx ho he
                · exact .empty hs hx ho he
                · exact .oversize hs hx ho
                · exact .oversize hs hx ho
              · cases hi
        | readPayload =>
          simp only [hs, decodeByte] at hi
          cases hi
          obtain ⟨-, hp, rfl⟩ := execRpData_next h
          cases hl : lastPayload s
          · exact .data hs hp hl
          · exact .lastData hs hp hl
        | readTrailer =>
          simp only [hs, decodeByte] at hi
          split at hi
          · next hx =>
            cases hi
            obtain ⟨-, h⟩ := whenSelected_next.1 h
            cases h
            exact .fcs hs hx
          · split at hi
            · next hx =>
              split at hi
              · next hb =>
                subst hb
                cases hi
                obtain ⟨-, -, h⟩ := execRtEtx_next h
                rcases h with ⟨hf, rfl⟩ | ⟨hf, ha, rfl⟩ | ⟨hf, ha, f, hr, rfl⟩
                · exact .mismatch hs hx hf
                · exact .filtered hs hx hf ha
                · exact .dispatch hs hx hf ha hr
              · next hb =>
                cases hi
                obtain ⟨-, h⟩ := whenSelected_next.1 h
                cases h
                exact .badEtx hs hx hb
            · cases hi
  · cases h

/-- An event step is the answer of handling the event. -/
theorem EventStep.handle {e : Event} {s t : State} (h : EventStep e s t) :
    handleEvent e s = .next t := by
  rw [handleEvent_eq]
  cases h with
  | skip hs hb =>
    simp [decodeEvent, positionReject, decodeByte, hs, hb, exec, execAsSkip, whenSelected, isStx]
  | start hs => simp [decodeEvent, positionReject, decodeByte, hs, exec, execAsStx, whenSelected]
  | appid hs hx => simp [decodeEvent, positionReject, decodeByte, hs, hx, exec, execRhAppid, whenSelected]
  | lenhi hs hx => simp [decodeEvent, positionReject, decodeByte, hs, hx, exec, execRhLenhi, whenSelected]
  | oversize hs hx ho =>
    simp [decodeEvent, positionReject, decodeByte, hs, hx, exec, execRhLenlo, whenSelected, ho, afterLenLo]
  | empty hs hx ho he =>
    simp [decodeEvent, positionReject, decodeByte, hs, hx, exec, execRhLenlo, whenSelected, ho, he, afterLenLo]
  | payload hs hx ho he =>
    simp [decodeEvent, positionReject, decodeByte, hs, hx, exec, execRhLenlo, whenSelected, ho, he, afterLenLo]
  | @data _ b hs hp hl =>
    have hc : s.cnt.toNat < payloadCap := by
      have := (payloadPosition_iff _).1 hp
      rw [payloadCap_eq]
      omega
    simp [decodeEvent, positionReject, decodeByte, hs, exec, execRpData, whenSelected, hp, hl,
      memWrite_of_lt b hc, afterData]
  | @lastData _ b hs hp hl =>
    have hc : s.cnt.toNat < payloadCap := by
      have := (payloadPosition_iff _).1 hp
      rw [payloadCap_eq]
      omega
    simp [decodeEvent, positionReject, decodeByte, hs, exec, execRpData, whenSelected, hp, hl,
      memWrite_of_lt b hc, afterData]
  | fcs hs hx => simp [decodeEvent, positionReject, decodeByte, hs, hx, exec, execRtFcs, whenSelected]
  | badEtx hs hx hb =>
    simp [decodeEvent, positionReject, decodeByte, hs, hx, hb, exec, execRtBadetx, whenSelected, etxOk]
  | mismatch hs hx hf =>
    simp [decodeEvent, positionReject, decodeByte, hs, hx, exec, execRtEtx, whenSelected, hf]
  | filtered hs hx hf ha =>
    simp [decodeEvent, positionReject, decodeByte, hs, hx, exec, execRtEtx, whenSelected, hf, ha]
  | dispatch hs hx hf ha hr =>
    simp [decodeEvent, positionReject, decodeByte, hs, hx, exec, execRtEtx, whenSelected, hf, ha, hr]
  | retry hs hr => simp [decodeEvent, hr, hs, exec, execEvRetry, whenSelected]
  | eos hs hr => simp [decodeEvent, hr, hs, exec, execEvEos, whenSelected]
  | fatal hs hr => simp [decodeEvent, hr, hs, exec, execEvFatal, whenSelected]
  | stop hs hr => simp [decodeEvent, hr, hs, exec, execEvStop, whenSelected]
  | ignored hs => simp [decodeEvent, positionReject, hs, exec, execHaltIgn, whenSelected]

theorem runEvents_cons {e : Event} {es : List Event} {s t : State} (h : EventStep e s t) :
    runEvents (e :: es) s = runEvents es t := by
  simp [runEvents, h.handle]

/-- Runs of events compose. -/
theorem runEvents_append {es es' : List Event} {s t : State} (h : runEvents es s = .next t) :
    runEvents (es ++ es') s = runEvents es' t := by
  induction es generalizing s with
  | nil => cases h; rfl
  | cons e es ih =>
    simp only [runEvents, List.cons_append] at h ⊢
    split at h
    · next u hu => exact ih h
    · cases h
    · cases h

/-- A call of a unit, executed. -/
theorem runWord_mapper (p2 : Byte) (s : State) :
    runWord (.mapper p2) s = .next (s.lookup (formatCode p2)) := by
  have hc : ∀ (c : BitVec 4) (ign : BitVec 3) (ul : BitVec 1),
      exec (mapInstr c ign ul) s = .next (s.lookup c) := by
    intro c ign ul
    have h : c = BitVec.ofNat 4 c.toNat := by simp
    have hlt := c.isLt
    generalize c.toNat = n at h hlt
    subst h
    interval_cases n <;> rfl
  exact hc _ _ _

theorem runWord_direction (p2 : Byte) (s : State) :
    runWord (.direction p2) s = .next (s.direction (isUplink p2)) := by
  by_cases h : uplinkBit p2 = 1#1
  · simp [runWord, decode, dirInstr, h, exec, execDirUl, isUplink]
  · simp [runWord, decode, dirInstr, h, exec, execDirDl, isUplink]

theorem runWord_frame {f : Frame} (h : f.wf) (s : State) :
    runWord (.frame f) s = .next (encodeFrame f s) := by
  have hd : decode (.frame f) = .ok (.gtEnc f) := if_pos h
  simp [runWord, hd, exec, execGtEnc]

theorem runWord_control (enable : Bool) (s : State) :
    runWord (.control enable) s = .next (s.requestControl enable) := by
  cases enable <;> rfl

/-- What an encode does: a report and a count, or a packet with its two lookups. -/
theorem encodeFrame_cases (f : Frame) (s : State) :
    (encodePacket s.cfg f.payload = none ∧
      encodeFrame f s = s.countEncErr.emit (.outcome .encodeTruncated)) ∨
    (∃ p, encodePacket s.cfg f.payload = some p ∧
      encodeFrame f s =
        ((s.lookup (formatCode (payloadByte f.payload fmtByte))).direction
          (isUplink (payloadByte f.payload fmtByte))).emitPacket p) := by
  unfold encodeFrame
  cases h : encodePacket s.cfg f.payload with
  | none => exact .inl ⟨rfl, rfl⟩
  | some p => exact .inr ⟨p, rfl, rfl⟩

/-- The frame of an encode: it touches one counter, the outputs, the packet serialiser and the mapper's
two outputs (43_gsmtap_encoder.md R180). -/
theorem encodeFrame_frame (f : Frame) (s : State) :
    encodeFrame f s =
      { s with
        ctr := (encodeFrame f s).ctr
        out := (encodeFrame f s).out
        pktTx := (encodeFrame f s).pktTx
        mapOut := (encodeFrame f s).mapOut
        dirOut := (encodeFrame f s).dirOut } := by
  rcases encodeFrame_cases f s with ⟨-, h⟩ | ⟨p, -, h⟩ <;> rw [h] <;> rfl

@[simp] theorem encodeFrame_cfg (f : Frame) (s : State) :
    (encodeFrame f s).cfg = s.cfg := by rw [encodeFrame_frame]
@[simp] theorem encodeFrame_st (f : Frame) (s : State) :
    (encodeFrame f s).st = s.st := by rw [encodeFrame_frame]
@[simp] theorem encodeFrame_idx (f : Frame) (s : State) :
    (encodeFrame f s).idx = s.idx := by rw [encodeFrame_frame]
@[simp] theorem encodeFrame_haltCause (f : Frame) (s : State) :
    (encodeFrame f s).haltCause = s.haltCause := by rw [encodeFrame_frame]
@[simp] theorem encodeFrame_appId (f : Frame) (s : State) :
    (encodeFrame f s).appId = s.appId := by rw [encodeFrame_frame]
@[simp] theorem encodeFrame_dlen (f : Frame) (s : State) :
    (encodeFrame f s).dlen = s.dlen := by rw [encodeFrame_frame]
@[simp] theorem encodeFrame_csum (f : Frame) (s : State) :
    (encodeFrame f s).csum = s.csum := by rw [encodeFrame_frame]
@[simp] theorem encodeFrame_cnt (f : Frame) (s : State) :
    (encodeFrame f s).cnt = s.cnt := by rw [encodeFrame_frame]
@[simp] theorem encodeFrame_fcsRx (f : Frame) (s : State) :
    (encodeFrame f s).fcsRx = s.fcsRx := by rw [encodeFrame_frame]
@[simp] theorem encodeFrame_pbuf (f : Frame) (s : State) :
    (encodeFrame f s).pbuf = s.pbuf := by rw [encodeFrame_frame]
@[simp] theorem encodeFrame_ctrlTx (f : Frame) (s : State) :
    (encodeFrame f s).ctrlTx = s.ctrlTx := by rw [encodeFrame_frame]
@[simp] theorem encodeFrame_pktLog (f : Frame) (s : State) :
    (encodeFrame f s).pktLog = s.pktLog := by rw [encodeFrame_frame]
@[simp] theorem encodeFrame_ctrlLog (f : Frame) (s : State) :
    (encodeFrame f s).ctrlLog = s.ctrlLog := by rw [encodeFrame_frame]
@[simp] theorem encodeFrame_source (f : Frame) (s : State) :
    (encodeFrame f s).source = s.source := by rw [encodeFrame_frame]
@[simp] theorem encodeFrame_stopReq (f : Frame) (s : State) :
    (encodeFrame f s).stopReq = s.stopReq := by rw [encodeFrame_frame]
@[simp] theorem encodeFrame_agenda (f : Frame) (s : State) :
    (encodeFrame f s).agenda = s.agenda := by rw [encodeFrame_frame]

theorem incCounter_lt (w c : Nat) : incCounter w c < 2 ^ w := Nat.mod_lt _ (Nat.two_pow_pos w)

/-- Every act of a step, executed: the one place that says what a step can be. -/
theorem step_cases {s t : State} (h : step s = .next t) :
    (s.nextAct = .rx ∧ s.pktTx ≠ [] ∧ t = s.popAgenda) ∨
    (s.nextAct = .rx ∧ s.pktTx = [] ∧
      ∃ e, portEvent s.sample = e ∧ EventStep e s.popAgenda.takeBeat t) ∨
    (s.nextAct = .pkt ∧ t = s.popAgenda.takePkt) ∨
    (s.nextAct = .ctrl ∧ t = s.popAgenda.takeCtrl) ∨
    (∃ e, s.nextAct = .ctrlReq e ∧ t = s.popAgenda.requestControl e) ∨
    (∃ l, s.nextAct = .stopReq l ∧ t = s.popAgenda.setStop l) ∨
    (s.nextAct = .rst ∧ t = s.popAgenda.applyReset) ∨
    (∃ c, s.nextAct = .call c ∧
      ((s.pktTx ≠ [] ∧ t = s.popAgenda) ∨
       (s.pktTx = [] ∧
        ((∃ p2, c = .mapper p2 ∧ t = s.popAgenda.lookup (formatCode p2)) ∨
         (∃ p2, c = .direction p2 ∧ t = s.popAgenda.direction (isUplink p2)) ∨
         (∃ f, c = .encode f ∧ f.wf ∧ t = encodeFrame f s.popAgenda))))) := by
  unfold step at h
  cases ha : s.nextAct with
  | rx =>
    rw [ha] at h
    by_cases hb : s.pktTx = []
    · right; left
      refine ⟨rfl, hb, _, rfl, handleEvent_next ?_⟩
      have hs : s.popAgenda.sample = s.sample := rfl
      simpa [doAct, rxTurn_eq (s := s.popAgenda) hb, hs] using h
    · left
      refine ⟨rfl, hb, ?_⟩
      simpa [doAct, rxTurn_busy (s := s.popAgenda) hb] using h.symm
  | pkt => rw [ha] at h; simpa [doAct] using h.symm
  | ctrl => rw [ha] at h; simpa [doAct] using h.symm
  | ctrlReq e => rw [ha] at h; simpa [doAct, runWord_control] using h.symm
  | stopReq l => rw [ha] at h; simpa [doAct] using h.symm
  | rst => rw [ha] at h; simpa [doAct] using h.symm
  | call c =>
    rw [ha] at h
    iterate 7 right
    refine ⟨c, rfl, ?_⟩
    by_cases hb : s.pktTx = []
    · refine .inr ⟨hb, ?_⟩
      simp only [doAct, State.busy, popAgenda_pktTx, hb, ne_eq, not_true_eq_false, decide_false,
        Bool.false_eq_true, if_false] at h
      cases c with
      | mapper p2 =>
        rw [callWord, runWord_mapper] at h
        exact .inl ⟨p2, rfl, by simpa using h.symm⟩
      | direction p2 =>
        rw [callWord, runWord_direction] at h
        exact .inr (.inl ⟨p2, rfl, by simpa using h.symm⟩)
      | encode f =>
        by_cases hf : f.wf
        · rw [callWord, runWord_frame hf] at h
          exact .inr (.inr ⟨f, rfl, hf, by simpa using h.symm⟩)
        · have hd : decode (.frame f) = .error .frameRecord := if_neg hf
          simp [callWord, runWord, hd] at h
    · refine .inl ⟨hb, ?_⟩
      simpa [doAct, State.busy, hb] using h.symm

end Sys2Proof.Machine
end

