-- ==== Sys2Proof/Laws/Run.lean ====
section
/-! SUPPORT. Runs of bytes: the payload of a frame, and a frame up to its trailer (41_frame_decoder.md
R131). -/

namespace Sys2Proof.Machine

/-- The fields that no byte before the terminator of an accepted frame touches. -/
def sameOutside (s t : State) : Prop :=
  t.cfg = s.cfg ∧ t.haltCause = s.haltCause ∧ t.ctrlTx = s.ctrlTx ∧ t.pktTx = s.pktTx ∧
  t.out = s.out ∧ t.ctr = s.ctr

/-- A run of the remaining payload bytes stores and folds them all and opens the trailer. -/
theorem payload_run (q : List Byte) (s : State) (taken : List Byte) (hs : s.st = .readPayload)
    (hq : q ≠ []) (hc : s.cnt.toNat = taken.length) (hd : s.dlen.toNat = taken.length + q.length)
    (hcap : s.dlen.toNat ≤ 255) (hm : memReadBytes s.pbuf 0 taken.length = .ok taken) :
    ∃ t, runEvents (byteEvents q) s = .next t ∧ t.st = .readTrailer ∧ t.idx = 0 ∧
      t.csum = q.foldl fold s.csum ∧ memReadBytes t.pbuf 0 t.dlen.toNat = .ok (taken ++ q) ∧
      t.appId = s.appId ∧ sameOutside s t := by
  induction q generalizing s taken with
  | nil => exact absurd rfl hq
  | cons b q ih =>
    simp only [List.length_cons] at hd
    have hp : payloadPosition s = true := (payloadPosition_iff _).2 ⟨by omega, hcap⟩
    have hm' := memReadBytes_snoc b (by rw [payloadCap_eq]; omega) hm
    rw [← hc] at hm'
    cases q with
    | nil =>
      have hl : lastPayload s = true := (lastPayload_iff _).2 (by simp at hd; omega)
      refine ⟨_, runEvents_cons (.lastData hs hp hl), rfl, rfl, by simp [afterData], ?_,
        rfl, rfl, rfl, rfl, rfl, rfl, rfl⟩
      simp only [List.length_nil] at hd
      simp only [afterData]
      rw [hd, ← hc]
      exact hm'
    | cons c q =>
      have hl : lastPayload s = false := by
        rw [← Bool.not_eq_true, lastPayload_iff]
        simp only [List.length_cons] at hd
        omega
      have hcn : (s.cnt + 1).toNat = s.cnt.toNat + 1 := by
        simp only [List.length_cons] at hd
        rw [BitVec.toNat_add]
        simp
        omega
      obtain ⟨t, h1, h2, h3, h4, h5, h6, h7⟩ := ih (afterData s b) (taken ++ [b]) hs (by simp)
        (by simp only [afterData, hcn]; simp [hc]) (by simp only [afterData]; simp at hd ⊢; omega)
        hcap (by simp only [afterData]; simpa [hc] using hm')
      refine ⟨t, ?_, h2, h3, h4, by simpa using h5, h6, h7⟩
      rw [← h1]
      exact runEvents_cons (.data hs hp hl)

/-- An accepted frame up to its last payload byte, from any state in `AwaitStart`: the trailer is open,
the checksum is that of AppID, both length bytes and payload, and the payload stands in the buffer. -/
theorem header_payload_run (s : State) (app hi : Byte) (p : List Byte) (hs : s.st = .awaitStart)
    (hp : p.length ≤ 255) (hh : hi.toNat % 32 = 0) :
    ∃ t, runEvents (byteEvents ([stx, app, hi, BitVec.ofNat 8 p.length] ++ p)) s = .next t ∧
      t.st = .readTrailer ∧ t.idx = 0 ∧
      t.csum = compute ([app, hi, BitVec.ofNat 8 p.length] ++ p) ∧
      memReadBytes t.pbuf 0 t.dlen.toNat = .ok p ∧ t.appId = app ∧ sameOutside s t := by
  let lo : Byte := BitVec.ofNat 8 p.length
  let s1 : State := { s with st := .readHeader, idx := 0 }
  let s2 : State := { s1 with appId := app, csum := fold 0 app, idx := 1 }
  let s3 : State := { s2 with dlen := dlenFromHi hi, csum := fold s2.csum hi, idx := 2 }
  have hd : (dlenWithLo s3.dlen lo).toNat = p.length := by
    rw [dlenWithLo_toNat, dlenFromHi_toNat, hh]
    simp [lo]
    omega
  have ho : oversize (dlenWithLo s3.dlen lo) = false := by
    rw [← Bool.not_eq_true, oversize_iff]
    omega
  have e1 : EventStep (.byte stx) s s1 := .start hs
  have e2 : EventStep (.byte app) s1 s2 := .appid rfl rfl
  have e3 : EventStep (.byte hi) s2 s3 := .lenhi rfl rfl
  cases p with
  | nil =>
    have e4 : EventStep (.byte lo) s3 ((afterLenLo s3 lo).goto .readTrailer) :=
      .empty rfl rfl ho ((emptyLength_iff _).2 hd)
    refine ⟨(afterLenLo s3 lo).goto .readTrailer, ?_, rfl, rfl, rfl, ?_, rfl, rfl, rfl, rfl, rfl,
      rfl, rfl⟩
    · show runEvents [.byte stx, .byte app, .byte hi, .byte lo] s = _
      rw [runEvents_cons e1, runEvents_cons e2, runEvents_cons e3, runEvents_cons e4]
      rfl
    · show memReadBytes _ 0 (dlenWithLo s3.dlen lo).toNat = _
      rw [hd]
      rfl
  | cons b q =>
    have he : emptyLength (dlenWithLo s3.dlen lo) = false := by
      rw [← Bool.not_eq_true, emptyLength_iff, hd]
      simp
    have e4 : EventStep (.byte lo) s3 ((afterLenLo s3 lo).goto .readPayload) :=
      .payload rfl rfl ho he
    obtain ⟨t, h1, h2, h3, h4, h5, h6, h7⟩ :=
      payload_run (b :: q) ((afterLenLo s3 lo).goto .readPayload) [] rfl (by simp) rfl
        (by show (dlenWithLo s3.dlen lo).toNat = _; rw [hd]; simp)
        (by show (dlenWithLo s3.dlen lo).toNat ≤ _; omega) rfl
    refine ⟨t, ?_, h2, h3, by rw [h4]; rfl, by simpa using h5, h6, h7⟩
    show runEvents (.byte stx :: .byte app :: .byte hi :: .byte lo :: byteEvents (b :: q)) s = _
    rw [runEvents_cons e1, runEvents_cons e2, runEvents_cons e3, runEvents_cons e4, h1]

end Sys2Proof.Machine
end

