-- ==== Sys2Proof/Laws/Safety.lean ====
section
/-! SUPPORT. The positions with a row, and the lists of outcomes and of packets among outputs. -/

namespace Sys2Proof.Machine

/-- The decoder rejects no position exactly where the table has a row (41_frame_decoder.md R112). -/
theorem positionReject_eq_none {st : DecState} {idx : BitVec 2} :
    positionReject st idx = none ↔ hasRow st idx = true := by
  revert idx
  cases st <;> decide

@[simp] theorem outcomesOf_append (a b : List Output) :
    outcomesOf (a ++ b) = outcomesOf a ++ outcomesOf b := by
  induction a with
  | nil => rfl
  | cons x a ih => cases x <;> simp [outcomesOf, ih]

@[simp] theorem packetsOf_append (a b : List Output) :
    packetsOf (a ++ b) = packetsOf a ++ packetsOf b := by
  induction a with
  | nil => rfl
  | cons x a ih => cases x <;> simp [packetsOf, ih]

end Sys2Proof.Machine
end

