-- ==== Sys2Proof/Tests/Slice0.lean ====
section
/-! SUPPORT. The model's own tests. Expected values are those of spec/95_test_vectors.md (K, D, M, E, C,
P vectors) and of the rules' examples, or written out by hand from 30_encoding.md and 10_state.md. The
witnesses show, for every statement that has hypotheses, concrete values that meet them. -/

namespace Sys2Proof.Tests

open Sys2Proof Sys2Proof.Machine

/-! ### Helpers -/

/-- The state after reset at another position. -/
def posState (st : DecState) (idx : BitVec 2) : State := { State.reset with st := st, idx := idx }

/-- A field of the next state, if there is one. -/
def nextField {α : Type} (f : State → α) : Answer → Option α
  | .next s => some (f s)
  | .fault _ => none
  | .refused _ => none

/-- The refusal of an answer, if it is one. -/
def refusal : Answer → Option Refusal
  | .next _ => none
  | .fault _ => none
  | .refused r => some r

/-- The instruction of a decode, if there is one. -/
def decoded (w : OpWord) : Option Instr :=
  match decode w with
  | .ok i => some i
  | .error _ => none

/-- The reason of a rejection, if there is one. -/
def rejected (w : OpWord) : Option DecodeReject :=
  match decode w with
  | .ok _ => none
  | .error r => some r

/-- A sample of the event ports: no stop request, a beat presented. -/
def presented (kind : BitVec 2) (data : Byte) : EventPort := ⟨false, ⟨true, kind, data⟩⟩

/-- A buffer holding a payload from index 0 on. -/
def bufferOf (p : List Byte) : Memory :=
  ((List.range p.length).zip p).foldl (fun m c => memStore m c.1 c.2) []

/-- A frame taken up to its terminator. -/
def atTerminator (app : Byte) (p : List Byte) (csum fcs : Byte) : State :=
  { posState .readTrailer 1 with
    appId := app, dlen := BitVec.ofNat 13 p.length, cnt := BitVec.ofNat 8 p.length,
    csum := csum, fcsRx := fcs, pbuf := bufferOf p }

/-- A state whose next act is given. -/
def acting (a : Act) (s : State) : State := { s with agenda := [a] }

/-- A state in the decoder's turn with a beat presented. -/
def offered (kind : BitVec 2) (data : Byte) (s : State) : State :=
  { s with agenda := [.rx], source := [⟨true, kind, data⟩] }

/-! ### Well-formedness: an ill-formed term for each check -/

theorem test_wf_skip_start_marker : Instr.wf (.asSkip 0x02) = false := by decide
theorem test_wf_badetx_end_marker : Instr.wf (.rtBadetx 0x03) = false := by decide
theorem test_wf_encode_other_channel : Instr.wf (.gtEnc ⟨0x07, [], 0x00⟩) = false := by decide
theorem test_wf_encode_over_capacity (p : List Byte) (h : p.length = 256) :
    Instr.wf (.gtEnc ⟨0x00, p, 0x00⟩) = false := by simp [Instr.wf, h]
theorem test_wf_encode_at_capacity (p : List Byte) (h : p.length = 255) :
    Instr.wf (.gtEnc ⟨0x00, p, 0x00⟩) = true := by simp [Instr.wf, traceAppId, h]

/-! ### Decode: one word per constructor, written from the tables -/

theorem test_decode_asSkip :
    decoded (.position 0b000 0b00 (presented 0b00 0b00000011)) = some (.asSkip 0x03) := by decide
theorem test_decode_asStx :
    decoded (.position 0b000 0b11 (presented 0b00 0b00000010)) = some .asStx := by decide
theorem test_decode_rhAppid :
    decoded (.position 0b001 0b00 (presented 0b00 0b00000010)) = some (.rhAppid 0x02) := by decide
theorem test_decode_rhLenhi :
    decoded (.position 0b001 0b01 (presented 0b00 0b11100000)) = some (.rhLenhi 0xE0) := by decide
theorem test_decode_rhLenlo :
    decoded (.position 0b001 0b10 (presented 0b00 0b00000111)) = some (.rhLenlo 0x07) := by decide
theorem test_decode_rpData :
    decoded (.position 0b010 0b00 (presented 0b00 0b00000011)) = some (.rpData 0x03) := by decide
theorem test_decode_rtFcs :
    decoded (.position 0b011 0b00 (presented 0b00 0b00000011)) = some (.rtFcs 0x03) := by decide
theorem test_decode_rtBadetx :
    decoded (.position 0b011 0b01 (presented 0b00 0b00000010)) = some (.rtBadetx 0x02) := by decide
theorem test_decode_rtEtx :
    decoded (.position 0b011 0b01 (presented 0b00 0b00000011)) = some .rtEtx := by decide
theorem test_decode_evRetry :
    decoded (.position 0b010 0b00 ⟨false, ⟨false, 0b00, 0b00000010⟩⟩) = some .evRetry := by decide
theorem test_decode_evEos :
    decoded (.position 0b001 0b10 (presented 0b01 0b00000010)) = some .evEos := by decide
theorem test_decode_evFatal :
    decoded (.position 0b000 0b00 (presented 0b10 0b00000000)) = some .evFatal := by decide
theorem test_decode_reserved_kind_is_fatal :
    decoded (.position 0b011 0b01 (presented 0b11 0b00000011)) = some .evFatal := by decide
theorem test_decode_evStop :
    decoded (.position 0b000 0b00 ⟨true, ⟨true, 0b00, 0b00000010⟩⟩) = some .evStop := by decide
theorem test_decode_haltIgn :
    decoded (.position 0b100 0b01 (presented 0b00 0b00000010)) = some (.haltIgn (.byte 0x02)) := by
  decide
theorem test_decode_map0 : decoded (.mapper 0b00000001) = some (.map0 0 1) := by decide
theorem test_decode_map1 : decoded (.mapper 0b00000010) = some (.map1 0 0) := by decide
theorem test_decode_map2 : decoded (.mapper 0b00000101) = some (.map2 0 1) := by decide
theorem test_decode_map3 : decoded (.mapper 0b11100110) = some (.map3 0b111 0) := by decide
theorem test_decode_map4 : decoded (.mapper 0b00001000) = some (.map4 0 0) := by decide
theorem test_decode_map5 : decoded (.mapper 0b00001011) = some (.map5 0 1) := by decide
theorem test_decode_map6 : decoded (.mapper 0b00101100) = some (.map6 1 0) := by decide
theorem test_decode_map7 : decoded (.mapper 0b00001111) = some (.map7 0 1) := by decide
theorem test_decode_map8 : decoded (.mapper 0b00010000) = some (.map8 0 0) := by decide
theorem test_decode_map9 : decoded (.mapper 0b00010011) = some (.map9 0 1) := by decide
theorem test_decode_map10 : decoded (.mapper 0b10010100) = some (.map10 0b100 0) := by decide
theorem test_decode_map11 : decoded (.mapper 0b00010111) = some (.map11 0 1) := by decide
theorem test_decode_map12 : decoded (.mapper 0b00011000) = some (.map12 0 0) := by decide
theorem test_decode_map13 : decoded (.mapper 0b00011011) = some (.map13 0 1) := by decide
theorem test_decode_map14 : decoded (.mapper 0b01011100) = some (.map14 0b010 0) := by decide
theorem test_decode_map15 : decoded (.mapper 0b00011111) = some (.map15 0 1) := by decide
theorem test_decode_dirDl : decoded (.direction 0b00000110) = some (.dirDl 0b0000011) := by decide
theorem test_decode_dirUl : decoded (.direction 0b00000111) = some (.dirUl 0b0000011) := by decide
theorem test_decode_gtEnc :
    decoded (.frame ⟨0x00, [0x01], 0x02⟩) = some (.gtEnc ⟨0x00, [0x01], 0x02⟩) := by decide
theorem test_decode_crEn : decoded (.control true) = some .crEn := by decide
theorem test_decode_crDis : decoded (.control false) = some .crDis := by decide

theorem test_decode_rejects_state_code :
    rejected (.position 0b111 0b00 (presented 0b00 0b00000010)) = some .stateCode := by decide
theorem test_decode_rejects_header_index :
    rejected (.position 0b001 0b11 (presented 0b00 0b00000010)) = some .headerIndex := by decide
theorem test_decode_rejects_trailer_index :
    rejected (.position 0b011 0b10 (presented 0b00 0b00000011)) = some .trailerIndex := by decide
theorem test_decode_rejects_event_without_row :
    rejected (.position 0b001 0b11 ⟨false, ⟨false, 0b00, 0b00000000⟩⟩) = some .headerIndex ∧
    rejected (.position 0b011 0b11 (presented 0b01 0b00000000)) = some .trailerIndex := by decide
theorem test_decode_rejects_other_channel_record :
    rejected (.frame ⟨0x01, [], 0x00⟩) = some .frameRecord := by decide

theorem test_table_word_stx : decodeTableWord 8 0x02 = some .asStx := by decide
theorem test_table_word_map9 : decodeTableWord 8 0x12 = some (.map9 0 0) := by decide
theorem test_table_word_enable :
    decodeTableWord 96 0x02000006001F0000003F2603 = some .crEn := by decide
theorem test_table_word_unknown_length : decodeTableWord 16 0x02 = none := by decide
theorem test_step_runs_the_placed_word :
    nextField (·.st) (step (State.reset.withFetchWord 8 0x02)) = some .readHeader := by decide
theorem test_step_runs_the_placed_request :
    nextField (·.ctrlTx.length) (step (State.reset.withFetchWord 96 0x02000006001F000000001903)) =
      some 12 := by decide

/-! ### Checksum Engine: vectors K -/

theorem test_checksum_k4 : compute [0xFF, 0x0F] = 0xF0 := by decide
theorem test_checksum_k7 :
    compute [0x00, 0x00, 0x07, 0x03, 0x00, 0x07, 0x00, 0x02, 0xAA, 0xBB] = 0x10 := by decide
theorem test_verify_k7 : verify 0x10 0x10 = true ∧ verify 0x10 0x11 = false := by decide

/-! ### Frame Decoder, one step each -/

/-- R113's example. -/
theorem test_skip_changes_nothing :
    exec (.asSkip 0x00) (posState .awaitStart 0) = .next (posState .awaitStart 0) := rfl
/-- R114's example. -/
theorem test_stx_opens_header :
    exec .asStx (posState .awaitStart 3) = .next (posState .readHeader 0) := rfl
/-- P2, step 7: AppID on a stale checksum. -/
theorem test_appid_seeds_checksum :
    nextField (fun s => (s.appId, s.csum, s.idx))
      (exec (.rhAppid 0xAA) { posState .readHeader 0 with csum := 0x40 }) =
      some (0xAA, 0xAA, 1) := by decide
/-- R116's corner cases: reserved bits enter the checksum only; bit 4 counts. -/
theorem test_lenhi_reserved_bits :
    nextField (fun s => (s.dlen, s.csum, s.idx))
      (exec (.rhLenhi 0xE0) { posState .readHeader 1 with dlen := 0x155 }) =
      some (0, 0xE0, 2) := by decide
theorem test_lenhi_bit_four :
    nextField (·.dlen) (exec (.rhLenhi 0x10) (posState .readHeader 1)) = some 0x1000 := by decide
/-- D8: length 256 is refused at the fourth byte. -/
theorem test_lenlo_oversize_at_256 :
    nextField (fun s => (s.st, s.dlen, s.ctr.nErr, s.out))
      (exec (.rhLenlo 0x00) { posState .readHeader 2 with dlen := 0x100 }) =
      some (.awaitStart, 256, 1, [.outcome .oversizeLength]) := by decide
/-- D18: length 255 passes the guard. -/
theorem test_lenlo_accepts_255 :
    nextField (fun s => (s.st, s.dlen, s.csum, s.cnt))
      (exec (.rhLenlo 0xFF) { posState .readHeader 2 with cnt := 9 }) =
      some (.readPayload, 255, 0xFF, 0) := by decide
/-- R119's example. -/
theorem test_data_stores_first_byte :
    nextField (fun s => (s.pbuf, s.csum, s.cnt, s.st))
      (exec (.rpData 0x03) { posState .readPayload 0 with dlen := 7, csum := 0x07 }) =
      some ([(0, 0x03)], 0x04, 1, .readPayload) := by decide
/-- P4, step 7, with `dlen` 2: the last byte opens the trailer. -/
theorem test_data_last_byte :
    nextField (fun s => (s.pbuf, s.cnt, s.st))
      (exec (.rpData 0x02)
        { posState .readPayload 0 with dlen := 2, cnt := 1, pbuf := [(0, 0x01), (1, 0x77)] }) =
      some ([(0, 0x01), (1, 0x02)], 2, .readTrailer) := by decide
/-- R120's example: the FCS is not folded. -/
theorem test_fcs_not_folded :
    nextField (fun s => (s.fcsRx, s.csum, s.idx))
      (exec (.rtFcs 0x10) { posState .readTrailer 0 with csum := 0x10 }) =
      some (0x10, 0x10, 1) := by decide
/-- D7: both wrong, one outcome, `n_cksum` unchanged, the `02` starts nothing. -/
theorem test_badetx_wins_over_checksum :
    nextField (fun s => (s.st, s.ctr, s.out))
      (exec (.rtBadetx 0x02) (atTerminator 0x00 [0x01] 0x00 0x5A)) =
      some (.awaitStart, ⟨0, 1, 0, 0, 0⟩, [.outcome .wrongTerminator]) := by decide
/-- D12: the checksum is compared before the AppID. -/
theorem test_etx_mismatch_before_channel :
    nextField (fun s => (s.st, s.ctr, s.out))
      (exec .rtEtx (atTerminator 0x05 [0x01, 0x02] 0x04 0x00)) =
      some (.awaitStart, ⟨0, 1, 1, 0, 0⟩, [.outcome .checksumMismatch]) := by decide
/-- D11: a good frame on AppID 07. -/
theorem test_etx_filters_channel :
    nextField (fun s => (s.ctr, s.out)) (exec .rtEtx (atTerminator 0x07 [0x09, 0x09] 0x05 0x05)) =
      some (⟨0, 0, 0, 1, 0⟩, [.outcome .filteredAppId]) := by decide
/-- D2: dispatch of the smallest frame that encodes. -/
theorem test_etx_dispatches_packet :
    nextField (fun s => (s.ctr, s.out))
      (exec .rtEtx (atTerminator 0x00 [0x00, 0x00, 0x06, 0x00, 0x00] 0x03 0x03)) =
      some (⟨1, 0, 0, 0, 0⟩,
        [.outcome (.ok ⟨0x00, [0x00, 0x00, 0x06, 0x00, 0x00], 0x03⟩),
         .packet [0x02, 0x04, 0x01, 0x00, 0x00, 0x00, 0x00, 0x00, 0x00, 0x00, 0x00, 0x00, 0x01,
           0x00, 0x00, 0x00]]) := by decide
/-- D1: an empty payload is dispatched, then refused by the encoder. -/
theorem test_etx_dispatches_truncated :
    nextField (fun s => (s.st, s.ctr, s.out)) (exec .rtEtx (atTerminator 0x00 [] 0x00 0x00)) =
      some (.awaitStart, ⟨1, 0, 0, 0, 1⟩,
        [.outcome (.ok ⟨0x00, [], 0x00⟩), .outcome .encodeTruncated]) := by decide
/-- R260: a counter wraps. -/
theorem test_counter_wraps : incCounter 32 0xFFFFFFFF = 0 := by decide
/-- R125's example. -/
theorem test_retry_changes_nothing :
    exec .evRetry (posState .readPayload 0) = .next (posState .readPayload 0) := rfl
/-- P4, step 8. -/
theorem test_eos_halts :
    nextField (fun s => (s.st, s.haltCause, s.out)) (exec .evEos (posState .readPayload 0)) =
      some (.halted, .endOfStream, [.outcome .ioFatalEndOfStream]) := by decide
/-- D17. -/
theorem test_fatal_halts :
    nextField (fun s => (s.st, s.haltCause, s.out)) (exec .evFatal (posState .awaitStart 0)) =
      some (.halted, .fatal, [.outcome .ioFatalFatal]) := by decide
/-- D16: stop in mid-header; the index stays. -/
theorem test_stop_halts :
    nextField (fun s => (s.st, s.haltCause, s.idx, s.out)) (exec .evStop (posState .readHeader 1)) =
      some (.halted, .stopped, 1, [.outcome .stopped]) := by decide
/-- R128's example. -/
theorem test_halted_ignores_start :
    exec (.haltIgn (.byte 0x02)) (posState .halted 0) = .next (posState .halted 0) := rfl
/-- R112: an operation the position does not select is refused. -/
theorem test_other_position_refused :
    refusal (exec (.rtFcs 0x02) (posState .awaitStart 0)) = some .notSelected := by decide

/-! ### Mapper and encoder: vectors M and E -/

theorem test_map0 : nextField (·.mapOut) (exec (.map0 0 1) State.reset) =
    some ⟨true, .burstNormal⟩ := by decide
theorem test_map1 : nextField (·.mapOut) (exec (.map1 0 0) State.reset) =
    some ⟨false, .rach⟩ := by decide
theorem test_map2 : nextField (·.mapOut) (exec (.map2 0 0) State.reset) =
    some ⟨true, .accessBurst⟩ := by decide
theorem test_map3 : nextField (·.mapOut) (exec (.map3 7 0) State.reset) =
    some ⟨false, .bcch⟩ := by decide
theorem test_map4 : nextField (·.mapOut) (exec (.map4 0 0) State.reset) =
    some ⟨false, .pch⟩ := by decide
theorem test_map5 : nextField (·.mapOut) (exec (.map5 0 0) State.reset) =
    some ⟨false, .sdcch⟩ := by decide
theorem test_map6 : nextField (·.mapOut) (exec (.map6 0 0) State.reset) =
    some ⟨false, .unknown⟩ := by decide
theorem test_map7 : nextField (·.mapOut) (exec (.map7 0 0) State.reset) =
    some ⟨false, .sdcch⟩ := by decide
theorem test_map8 : nextField (·.mapOut) (exec (.map8 0 0) State.reset) =
    some ⟨false, .accSdcch⟩ := by decide
theorem test_map9 : nextField (·.mapOut) (exec (.map9 0 0) State.reset) =
    some ⟨false, .tchF⟩ := by decide
theorem test_map10 : nextField (·.mapOut) (exec (.map10 0 0) State.reset) =
    some ⟨false, .tchH⟩ := by decide
theorem test_map11 : nextField (·.mapOut) (exec (.map11 0 0) State.reset) =
    some ⟨false, .ccch⟩ := by decide
theorem test_map12 : nextField (·.mapOut) (exec (.map12 0 0) State.reset) =
    some ⟨false, .agch⟩ := by decide
theorem test_map13 : nextField (·.mapOut) (exec (.map13 0 0) State.reset) =
    some ⟨false, .unknown⟩ := by decide
theorem test_map14 : nextField (·.mapOut) (exec (.map14 0 0) State.reset) =
    some ⟨false, .unknown⟩ := by decide
theorem test_map15 : nextField (·.mapOut) (exec (.map15 0 1) State.reset) =
    some ⟨false, .unknown⟩ := by decide
/-- R151's examples. -/
theorem test_direction_of_07 : isUplink 0x07 = true ∧ isUplink 0x06 = false := by decide
theorem test_dirDl : nextField (·.dirOut) (exec (.dirDl 3) { State.reset with dirOut := true }) =
    some false := by decide
theorem test_dirUl : nextField (·.dirOut) (exec (.dirUl 3) State.reset) = some true := by decide

/-- E7: excess payload is not copied; code 3, uplink. -/
theorem test_encode_drops_excess :
    nextField (·.out)
      (exec (.gtEnc ⟨0x00, [0x00, 0x00, 0x07, 0x00, 0x01, 0xC1, 0xC2, 0xC3], 0xCE⟩) State.reset) =
      some [.packet [0x02, 0x04, 0x01, 0x00, 0x40, 0x00, 0x00, 0x00, 0x00, 0x00, 0x00, 0x00, 0x01,
        0x00, 0x00, 0x00, 0xC1]] := by decide
/-- E8: a content length of 65535 must not wrap. -/
theorem test_encode_length_does_not_wrap :
    nextField (fun s => (s.ctr.nEncErr, s.out))
      (exec (.gtEnc ⟨0x00, [0x00, 0x00, 0x06, 0xFF, 0xFF], 0x03⟩) State.reset) =
      some (1, [.outcome .encodeTruncated]) := by decide

/-! ### Control requests: S2 -/

theorem test_control_enable :
    nextField (fun s => s.ctrlTx.map (·.data)) (exec .crEn State.reset) =
      some [2, 0, 0, 6, 0, 31, 0, 0, 0, 63, 38, 3] := by decide
theorem test_control_disable :
    nextField (fun s => s.ctrlTx.map (·.data)) (exec .crDis State.reset) =
      some [2, 0, 0, 6, 0, 31, 0, 0, 0, 0, 25, 3] := by decide

/-! ### Ports and reset -/

/-- R26: the codes of the position on its ports. -/
theorem test_position_ports :
    (posState .readTrailer 1).stPort = 0b011 ∧ (posState .readTrailer 1).idxPort = 0b01 ∧
    { posState .halted 0 with haltCause := .stopped }.haltCausePort = 0b11 := by decide
/-- R35: while a packet is being sent no event is taken. -/
theorem test_busy_takes_no_event :
    nextField (fun s => (s.st, s.source.length))
      (step (offered 0 0x02 { State.reset with pktTx := [⟨0x02, true⟩] })) =
      some (.awaitStart, 1) := by decide
/-- R35: the presented beat stays with the source when the stop request is high. -/
theorem test_stop_leaves_the_beat :
    nextField (fun s => (s.haltCause, s.source.length))
      (step (offered 0 0x02 { State.reset with stopReq := true })) = some (.stopped, 1) := by decide
/-- R251: reset cuts a packet short; bytes taken stay taken. -/
theorem test_reset_cuts_packet :
    nextField (fun s => (s.st, s.pktTx, s.pktLog))
      (step (acting .rst
        { posState .halted 0 with pktTx := [⟨0x04, false⟩], pktLog := [⟨0x02, false⟩] })) =
      some (.awaitStart, [], [⟨0x02, false⟩]) := by decide
/-- R53: reset does not clear the buffer. -/
theorem test_reset_keeps_buffer :
    nextField (·.pbuf) (step (acting .rst { posState .halted 0 with pbuf := [(3, 0x7E)] })) =
      some [(3, 0x7E)] := by decide
/-- R36: the requester takes the bytes of the serialiser in order, the last flag with its byte. -/
theorem test_control_byte_taken :
    nextField (fun s => (s.ctrlTx, s.ctrlLog))
      (step (acting .ctrl
        { State.reset with ctrlTx := [⟨0x26, false⟩, ⟨0x03, true⟩], ctrlLog := [⟨0x3F, false⟩] })) =
      some ([⟨0x03, true⟩], [⟨0x3F, false⟩, ⟨0x26, false⟩]) := by decide
/-- Log entry 9: from reset with nothing placed a step is EV.RETRY. -/
theorem test_reset_steps_to_itself : step State.reset = .next State.reset := rfl

/-! ### Witnesses: the hypotheses of each statement can be met, clause by clause -/

/-- A dispatchable state with payload `p` and its own checksum byte. -/
def dispatchable (p : List Byte) : State := atTerminator 0x00 p 0x10 0x10

theorem witness_await_start :
    State.reset.st = .awaitStart ∧ (0x01 : Byte) ≠ 0x02 ∧ (0x03 : Byte) ≠ 0x02 := by decide
theorem witness_header :
    (posState .readHeader 0).st = .readHeader ∧ (posState .readHeader 0).idx = 0 ∧
    (posState .readHeader 1).st = .readHeader ∧ (posState .readHeader 1).idx = 1 := by decide
/-- The guard's three outcomes at their boundaries: 256, 255, 1 and 0. -/
theorem witness_length_guard :
    let s := { posState .readHeader 2 with dlen := 0x100 }
    let z := { posState .readHeader 2 with dlen := 0 }
    s.st = .readHeader ∧ s.idx = 2 ∧ 255 < s.dlen.toNat / 256 * 256 + (0x00 : Byte).toNat ∧
    z.st = .readHeader ∧ z.idx = 2 ∧ z.dlen.toNat / 256 * 256 + (0xFF : Byte).toNat = 255 ∧
    z.dlen.toNat / 256 * 256 + (0x01 : Byte).toNat = 1 ∧
    z.dlen.toNat / 256 * 256 + (0x00 : Byte).toNat = 0 := by decide
/-- The first of two bytes, and the last of 255. -/
theorem witness_payload_byte :
    let s := { posState .readPayload 0 with dlen := 2, cnt := 0 }
    let z := { posState .readPayload 0 with dlen := 255, cnt := 254 }
    s.st = .readPayload ∧ s.cnt.toNat < s.dlen.toNat ∧ s.dlen.toNat ≤ 255 ∧
    z.st = .readPayload ∧ z.cnt.toNat < z.dlen.toNat ∧ z.dlen.toNat ≤ 255 ∧
    z.cnt.toNat + 1 = z.dlen.toNat := by decide
theorem witness_trailer :
    (posState .readTrailer 0).st = .readTrailer ∧ (posState .readTrailer 0).idx = 0 ∧
    (posState .readTrailer 1).st = .readTrailer ∧ (posState .readTrailer 1).idx = 1 ∧
    (0x02 : Byte) ≠ 0x03 ∧ (0x04 : Byte) ≠ 0x03 := by decide
theorem witness_etx :
    let s := atTerminator 0x05 [0x01, 0x02] 0x04 0x00
    let z := atTerminator 0x07 [0x09, 0x09] 0x05 0x05
    s.st = .readTrailer ∧ s.idx = 1 ∧ s.csum ≠ s.fcsRx ∧
    z.st = .readTrailer ∧ z.idx = 1 ∧ z.csum = z.fcsRx ∧ z.appId ≠ 0x00 := by decide

theorem reads_payload {m : Memory} {p : List Byte} (h : memReadBytes m 0 p.length = .ok p) :
    ∀ i (h : i < p.length), memRead m i = .ok p[i] := by
  intro i hi
  simpa using (memReadBytes_ok.1 h).2 i hi

/-- Dispatch of a payload that encodes. -/
theorem witness_dispatch_packet :
    let p : List Byte := [0x00, 0x00, 0x06, 0x00, 0x00]
    let s := dispatchable p
    (s.st = .readTrailer ∧ s.idx = 1 ∧ s.csum = s.fcsRx ∧ s.appId = 0x00 ∧
      p.length = s.dlen.toNat) ∧
    (∀ i (h : i < p.length), memRead s.pbuf i = .ok p[i]) ∧
    (encodePacket s.cfg p).isSome = true :=
  ⟨by decide, reads_payload rfl, by decide⟩
/-- Dispatch of a payload one byte too short. -/
theorem witness_dispatch_truncated :
    let p : List Byte := [0x00, 0x00, 0x06, 0x00]
    let s := dispatchable p
    (s.st = .readTrailer ∧ s.idx = 1 ∧ s.csum = s.fcsRx ∧ s.appId = 0x00 ∧
      p.length = s.dlen.toNat) ∧
    (∀ i (h : i < p.length), memRead s.pbuf i = .ok p[i]) ∧ encodePacket s.cfg p = none :=
  ⟨by decide, reads_payload rfl, by decide⟩

theorem witness_not_halted : (posState .readPayload 0).st ≠ .halted := by decide
theorem witness_halted : (posState .halted 0).st = .halted := by decide
/-- An admissible table, and the codes of each clause at its boundaries. -/
theorem witness_admissible_table :
    State.reset.cfg.lutOk ∧ (6 : BitVec 4).toNat = 6 ∧ 13 ≤ (13 : BitVec 4).toNat ∧
    13 ≤ (15 : BitVec 4).toNat ∧ (3 : BitVec 4).toNat = 3 ∧
    exec (mapInstr 13 0 0) State.reset = .next (State.reset.lookup 13) :=
  ⟨by decide, by decide, by decide, by decide, by decide, rfl⟩
/-- Lengths 4 and 6 with content length 2 are too short, 7 is enough. -/
theorem witness_encoder :
    let four : List Byte := [0x00, 0x00, 0x06, 0x00]
    let six : List Byte := [0x03, 0x00, 0x07, 0x00, 0x02, 0xAA]
    let seven : List Byte := [0x03, 0x00, 0x07, 0x00, 0x02, 0xAA, 0xBB]
    four.length < 5 ∧
    six.length < 5 + ((six.getD 3 0).toNat * 256 + (six.getD 4 0).toNat) ∧
    5 + ((seven.getD 3 0).toNat * 256 + (seven.getD 4 0).toNat) ≤ seven.length := by decide
theorem witness_layout :
    defaultParams.layoutOk ∧ defaultParams.layout = defaultLayout ∧ defaultParams.hdrWords = 4 ∧
    5 < 4 * defaultParams.hdrWords.toNat ∧
    3 ∉ [defaultLayout.version, defaultLayout.hdrLen, defaultLayout.frameType, defaultLayout.arfcn,
      defaultLayout.arfcn + 1, defaultLayout.subType] := by decide
theorem witness_same_format_bits :
    let p : List Byte := [0x00, 0x00, 0x06, 0x00, 0x00]
    let q : List Byte := [0x11, 0x22, 0xE6, 0x00, 0x01, 0x7E]
    (encodePacket defaultParams p).isSome = true ∧ (encodePacket defaultParams q).isSome = true ∧
    (payloadByte p 2).toNat % 32 = (payloadByte q 2).toNat % 32 := by decide
theorem witness_packet_length :
    let p : List Byte := [0x00, 0x00, 0x06, 0x00, 0x00]
    let q : List Byte := [0x00, 0x00, 0x06, 0x00, 0xFB]
    p.length ≤ 255 ∧ (encodePacket defaultParams p).isSome = true ∧
    q.length ≤ 255 ∧ 250 < contentLength q := by decide
theorem witness_control_serialiser :
    State.reset.ctrlTx = [] ∧ { State.reset with ctrlTx := [⟨0x03, true⟩] }.ctrlTx ≠ [] := by decide
theorem witness_loop_back :
    State.reset.st = .awaitStart ∧ State.reset.cfg = defaultParams := by decide
/-- One step of each kind the statement tells apart. -/
theorem witness_control_acts :
    let c := acting .ctrl { State.reset with ctrlTx := [⟨0x03, true⟩] }
    let q := acting (.ctrlReq true) State.reset
    (c.nextAct = .ctrl ∧ step c = .next c.popAgenda.takeCtrl) ∧
    (q.nextAct = .ctrlReq true ∧ step q = .next (q.popAgenda.requestControl true)) ∧
    (State.reset.nextAct = .rx ∧ step State.reset = .next State.reset) :=
  ⟨⟨rfl, rfl⟩, ⟨rfl, rfl⟩, ⟨rfl, rfl⟩⟩
theorem witness_checksum_change :
    let bs : List Byte := [0x12, 0x34]
    0 < bs.length ∧ 1 < bs.length ∧ (0 : Nat) ≠ 1 := by decide
/-- The empty payload and the largest, reserved bits set. -/
theorem witness_whole_frame :
    State.reset.st = .awaitStart ∧ ([] : List Byte).length ≤ 255 ∧
    (List.replicate 255 (0x02 : Byte)).length ≤ 255 ∧ (0xE0 : Byte).toNat % 32 = 0 :=
  ⟨rfl, by decide, (List.length_replicate ..).le, by decide⟩
theorem witness_round_trip :
    State.reset.st = .awaitStart ∧ (∀ b ∈ ([0x00, 0x01, 0x03] : List Byte), b ≠ 0x02) ∧
    255 < (0x01 : Byte).toNat % 32 * 256 + (0x00 : Byte).toNat := by decide
theorem witness_trace_content :
    State.reset.st = .awaitStart ∧ (List.replicate 250 (0x00 : Byte)).length ≤ 250 :=
  ⟨rfl, (List.length_replicate ..).le⟩
theorem witness_retry_position : hasRow (posState .readHeader 2).st (posState .readHeader 2).idx = true := by
  decide
theorem witness_control_stream :
    let s := { State.reset with agenda := .ctrlReq true :: List.replicate 12 .ctrl ++ [] }
    let z := acting .ctrl { State.reset with ctrlTx := [⟨0x26, false⟩, ⟨0x03, true⟩] }
    s.ctrlTx = [] ∧ s.nextAct = .ctrlReq true ∧ s.nextAct ≠ .rst ∧
    nextField (·.ctrlTx.length) (step s) = some 12 ∧ z.nextAct = .ctrl ∧ z.ctrlTx ≠ [] ∧
    nextField (·.ctrlTx) (step z) = some [⟨0x03, true⟩] := by decide
theorem witness_event_shapes :
    handleEvent .retry State.reset = .next State.reset ∧
    nextField (·.out.length) (handleEvent .stop State.reset) = some 1 ∧
    nextField (·.out.length) (handleEvent (.byte 0x03) (dispatchable [0x00, 0x00, 0x06, 0x00, 0x00])) =
      some 2 :=
  ⟨rfl, by decide, by decide⟩
theorem witness_well_formed : Instr.wf (.asSkip 0x03) = true ∧ Instr.wf (.rtBadetx 0x02) = true := by
  decide
theorem witness_has_row :
    hasRow .readHeader 2 = true ∧ hasRow .readTrailer 1 = true ∧
    decode ((posState .readTrailer 1).positionWord (eventPort (.byte 0x03))) = .ok .rtEtx ∧
    eventOf (.rtFcs 0x03) = some (.byte 0x03) ∧ Instr.rtFcs 0x03 ≠ .rtEtx :=
  ⟨rfl, rfl, rfl, rfl, by decide⟩
theorem witness_unreachable :
    let s := { posState .readPayload 0 with dlen := 5, cnt := 5 }
    let z := { posState .readPayload 0 with dlen := 256, cnt := 0 }
    5 ≤ (5 : BitVec 3).toNat ∧ 5 ≤ (7 : BitVec 3).toNat ∧ hasRow .readHeader 3 = false ∧
    hasRow .readTrailer 2 = false ∧ s.st = .readPayload ∧ s.dlen.toNat ≤ s.cnt.toNat ∧
    z.st = .readPayload ∧ 255 < z.dlen.toNat := by decide
theorem witness_payload_beyond_the_buffer :
    let s := { dispatchable [0x00] with dlen := 256 }
    s.st = .readTrailer ∧ s.idx = 1 ∧ s.csum = s.fcsRx ∧ s.appId = 0x00 ∧ 255 < s.dlen.toNat := by
  decide
theorem witness_undefined_record :
    (⟨0x01, [], 0x00⟩ : Frame).appId ≠ 0x00 ∧ 255 < (List.replicate 256 (0x00 : Byte)).length :=
  ⟨by decide, by rw [List.length_replicate]; decide⟩
theorem witness_step_decoder :
    let s := offered 0 0x02 State.reset
    s.nextAct = .rx ∧ s.pktTx = [] ∧
    decode (.position s.st.code s.idx ⟨s.stopReq, s.source.headD .idle⟩) = .ok .asStx :=
  ⟨rfl, rfl, rfl⟩
theorem witness_step_call_and_request :
    let s := acting (.call (.mapper 0x06)) State.reset
    let q := acting (.ctrlReq false) State.reset
    s.nextAct = .call (.mapper 0x06) ∧ s.pktTx = [] ∧
    decode (callWord (.mapper 0x06)) = .ok (.map3 0 0) ∧
    q.nextAct = .ctrlReq false ∧ decode (.control false) = .ok .crDis :=
  ⟨rfl, rfl, rfl, rfl, rfl⟩
theorem witness_busy_and_stop :
    let s := offered 0 0x02 { State.reset with pktTx := [⟨0x02, true⟩] }
    let z := offered 0 0x02 { State.reset with stopReq := true }
    s.nextAct = .rx ∧ s.pktTx ≠ [] ∧ z.nextAct = .rx ∧ z.pktTx = [] ∧ z.stopReq = true ∧
    z.st ≠ .halted ∧ hasRow z.st z.idx = true := by decide
theorem witness_eager :
    { State.reset with pktTx := [⟨0x02, false⟩, ⟨0x04, true⟩] }.agenda = [] := by decide
theorem witness_reset_act : (acting .rst (posState .halted 0)).nextAct = .rst := by decide

/-- A state in the middle of a payload that meets the invariant, with a byte presented. -/
def midPayload : State :=
  offered 0 0xAA { posState .readPayload 0 with
    dlen := 2, cnt := 1, csum := 0x03, pbuf := [(0, 0x01)] }

theorem reset_inv : State.reset.inv := by decide
theorem witness_invariant :
    midPayload.inv ∧ nextField (fun s => (s.st, s.cnt)) (step midPayload) = some (.readTrailer, 2) := by
  decide
/-- The checksum of AppID 00, LenHi 00, LenLo 02 and payload byte 01 is 03. -/
theorem witness_running_checksum : midPayload.inv ∧ csumTracks midPayload :=
  ⟨by decide, 0x00, [0x01], rfl, rfl, rfl⟩

/-- A dispatch about to happen, in the decoder's turn. -/
def dispatchTurn : State := offered 0 0x03 (dispatchable [0x00, 0x00, 0x06, 0x00, 0x00])

theorem witness_accounts :
    dispatchTurn.accounted ∧ dispatchTurn.nextAct ≠ .rst ∧
    nextField (·.ctr.nOk) (step dispatchTurn) = some 1 :=
  ⟨⟨rfl, rfl, rfl, rfl, rfl⟩, by decide, by decide⟩
theorem witness_stream :
    dispatchTurn.streamInOrder ∧ dispatchTurn.nextAct ≠ .rst ∧
    nextField (·.pktTx.length) (step dispatchTurn) = some 16 :=
  ⟨rfl, by decide, by decide⟩
theorem witness_one_packet :
    nextField (fun s => (packetsOf s.out).length) (step dispatchTurn) = some 1 := by decide
theorem witness_stays_halted :
    let s := offered 0 0x02 (posState .halted 0)
    s.st = .halted ∧ s.nextAct ≠ .rst ∧ (∀ c, s.nextAct ≠ .call c) ∧
    nextField (·.source.length) (step s) = some 1 :=
  ⟨rfl, by decide, by intro c; simp [offered, State.nextAct], by decide⟩
theorem witness_halts :
    let s := offered 1 0x00 (posState .readPayload 0)
    s.st ≠ .halted ∧ nextField (fun t => (t.st, t.haltCause)) (step s) =
      some (.halted, .endOfStream) := by decide
theorem witness_buffer_write :
    memByte midPayload.pbuf 1 = 0x00 ∧
    nextField (fun t => memByte t.pbuf 1) (step midPayload) = some 0xAA := by decide
/-- R50: index 254 holds a byte at reset (0x00 by log entry 2), index 255 does not exist. -/
theorem test_buffer_ends_at_254 :
    memRead State.reset.pbuf 254 = .ok 0x00 ∧ memRead State.reset.pbuf 255 = .error .pbufRange := by
  exact ⟨rfl, rfl⟩
/-- Storing what an unlisted index holds takes the entry out: equal contents are equal data. -/
theorem test_canonical_store :
    memStore [(0, 0x01), (3, 0x7E)] 3 0x00 = [(0, 0x01)] ∧
    memStore [(0, 0x01), (3, 0x7E)] 1 0x55 = [(0, 0x01), (1, 0x55), (3, 0x7E)] := by decide
theorem witness_buffer_bounds : (254 : Nat) ≤ 254 ∧ 254 < (255 : Nat) ∧ Memory.wf [(0, 0x01)] := by
  decide
/-- Two states of the same payload that differ in a stale FCS and a stale buffer byte. -/
theorem witness_stale :
    sameVisible midPayload { midPayload with fcsRx := 0x77, pbuf := [(0, 0x01), (9, 0x55)] } ∧
    nextField (·.cnt) (step midPayload) = some 2 := by
  refine ⟨⟨rfl, rfl, rfl, rfl, rfl, rfl, rfl, rfl, rfl, rfl, rfl, rfl, rfl, rfl, rfl, rfl, rfl, rfl, rfl,
    ?_⟩, by decide⟩
  intro k hk
  have hk : k < 1 := hk
  have : k = 0 := by omega
  subst this
  rfl
theorem witness_ports :
    State.reset.st = .awaitStart ∧ (posState .readHeader 2).st = .readHeader ∧
    (posState .readPayload 0).st = .readPayload ∧ (posState .readTrailer 1).st = .readTrailer ∧
    (posState .halted 0).st = .halted ∧ State.reset.haltCause = .none ∧
    { State.reset with haltCause := .endOfStream }.haltCause = .endOfStream ∧
    { State.reset with haltCause := .fatal }.haltCause = .fatal ∧
    { State.reset with haltCause := .stopped }.haltCause = .stopped := by decide
/-- A run from reset that takes a byte of a frame and stays in it. -/
theorem witness_unspecified_contents :
    let s := offered 0 0x02 State.reset
    s.st = .awaitStart ∧ nextField (·.st) (runSteps 1 s) = some .readHeader := by decide
theorem witness_any_step : step State.reset = .next State.reset := rfl

end Sys2Proof.Tests
end

section
/-! PROOFS. 00_scope.md R14: a step is the decoded instruction, executed, and from a state that meets
the invariant it always answers a next state. The progress half is one lemma per position of the table of
41_frame_decoder.md R112 (there is a rule, `EventStep`), then one per act. -/

namespace Sys2Proof.Machine

/-! ### A step is the decoded instruction, executed -/

theorem runWord_of_decode {w : OpWord} {i : Instr} (h : decode w = .ok i) (s : State) :
    runWord w s = exec i s := by
  simp [runWord, h]

/-- With no packet being sent, `rx_ready` looks at the halt and the stop level only (10_state.md R35). -/
theorem rxReady_iff {s : State} (h : s.pktTx = []) :
    s.rxReady = true ↔ s.st ≠ .halted ∧ s.stopReq = false := by
  simp [State.rxReady, State.busy, h]

theorem takeBeat_of_idle {s : State} (h : s.pktTx = []) :
    s.takeBeat =
      { s with
        source := if s.st ≠ .halted ∧ s.stopReq = false then s.source.tail else s.source } := by
  simp only [State.takeBeat, rxReady_iff h]
  split <;> rfl

theorem doAct_rx {s : State} (h : s.pktTx = []) :
    doAct .rx s = runWord (s.positionWord s.sample) s.takeBeat := by
  simp [doAct, rxTurn, State.busy, h]

theorem doAct_call {s : State} (c : UnitCall) (h : s.pktTx = []) :
    doAct (.call c) s = runWord (callWord c) s := by
  simp [doAct, State.busy, h]

theorem step_of_nextAct {s : State} {a : Act} (h : s.nextAct = a) : step s = doAct a s.popAgenda := by
  rw [step, h]

/-! ### Every position of the invariant has a rule for every event -/

theorem positionOk_readHeader {s : State} (hs : s.st = .readHeader) :
    positionOk s = true ↔ s.idx ≠ 3 := by
  simp [positionOk, hs]

theorem positionOk_readPayload {s : State} (hs : s.st = .readPayload) :
    positionOk s = true ↔ payloadPosition s = true := by
  simp [positionOk, hs]

theorem positionOk_readTrailer {s : State} (hs : s.st = .readTrailer) :
    positionOk s = true ↔
      (s.idx = 0 ∨ s.idx = 1) ∧ s.dlen.toNat ≤ payloadCap ∧ s.cnt.toNat = s.dlen.toNat := by
  simp [positionOk, hs, and_assoc]

theorem hasRow_of_positionOk {s : State} (h : positionOk s = true) : hasRow s.st s.idx = true := by
  cases hs : s.st with
  | awaitStart | readPayload | halted => rfl
  | readHeader => simpa [hasRow] using (positionOk_readHeader hs).1 h
  | readTrailer => simpa [hasRow] using ((positionOk_readTrailer hs).1 h).1

/-- A declared length within the buffer is read without a fault (20_memory.md R50). -/
theorem readFrame_total {s : State} (h : s.dlen.toNat ≤ payloadCap) : ∃ f, readFrame s = .ok f := by
  obtain ⟨p, hp⟩ := memReadBytes_total (m := s.pbuf) (n := s.dlen.toNat) (start := 0) (by omega)
  exact ⟨⟨s.appId, p, s.fcsRx⟩, by simp [readFrame, hp]⟩

theorem awaitStart_byte {s : State} (hs : s.st = .awaitStart) (b : Byte) :
    ∃ t, EventStep (.byte b) s t := by
  by_cases hb : b = stx
  · subst hb
    exact ⟨_, .start hs⟩
  · exact ⟨_, .skip hs hb⟩

/-- The length guard has an outcome for every completed length (41_frame_decoder.md R117). -/
theorem lenLo_byte {s : State} (hs : s.st = .readHeader) (hx : s.idx = 2) (b : Byte) :
    ∃ t, EventStep (.byte b) s t := by
  cases ho : oversize (dlenWithLo s.dlen b) with
  | true => exact ⟨_, .oversize hs hx ho⟩
  | false =>
    cases he : emptyLength (dlenWithLo s.dlen b) with
    | true => exact ⟨_, .empty hs hx ho he⟩
    | false => exact ⟨_, .payload hs hx ho he⟩

theorem readHeader_byte {s : State} (hs : s.st = .readHeader) (hx : s.idx ≠ 3) (b : Byte) :
    ∃ t, EventStep (.byte b) s t := by
  have index_cases : ∀ i : BitVec 2, i ≠ 3 → i = 0 ∨ i = 1 ∨ i = 2 := by decide
  rcases index_cases s.idx hx with h0 | h1 | h2
  · exact ⟨_, .appid hs h0⟩
  · exact ⟨_, .lenhi hs h1⟩
  · exact lenLo_byte hs h2 b

theorem readPayload_byte {s : State} (hs : s.st = .readPayload) (hp : payloadPosition s = true)
    (b : Byte) : ∃ t, EventStep (.byte b) s t := by
  cases hl : lastPayload s with
  | true => exact ⟨_, .lastData hs hp hl⟩
  | false => exact ⟨_, .data hs hp hl⟩

/-- The terminator: checksum, then channel, then a dispatch whose payload can be read
(41_frame_decoder.md R122 to R124). -/
theorem terminator_byte {s : State} (hs : s.st = .readTrailer) (hx : s.idx = 1)
    (hd : s.dlen.toNat ≤ payloadCap) : ∃ t, EventStep (.byte etx) s t := by
  cases hf : fcsOk s with
  | false => exact ⟨_, .mismatch hs hx hf⟩
  | true =>
    cases ha : traceApp s with
    | false => exact ⟨_, .filtered hs hx hf ha⟩
    | true =>
      obtain ⟨f, hr⟩ := readFrame_total hd
      exact ⟨_, .dispatch hs hx hf ha hr⟩

theorem readTrailer_byte {s : State} (hs : s.st = .readTrailer) (hx : s.idx = 0 ∨ s.idx = 1)
    (hd : s.dlen.toNat ≤ payloadCap) (b : Byte) : ∃ t, EventStep (.byte b) s t := by
  rcases hx with h0 | h1
  · exact ⟨_, .fcs hs h0⟩
  · by_cases hb : b = etx
    · exact hb ▸ terminator_byte hs h1 hd
    · exact ⟨_, .badEtx hs h1 hb⟩

theorem byte_progress {s : State} (h : positionOk s = true) (b : Byte) :
    ∃ t, EventStep (.byte b) s t := by
  cases hs : s.st with
  | awaitStart => exact awaitStart_byte hs b
  | readHeader => exact readHeader_byte hs ((positionOk_readHeader hs).1 h) b
  | readPayload => exact readPayload_byte hs ((positionOk_readPayload hs).1 h) b
  | readTrailer =>
    obtain ⟨hx, hd, -⟩ := (positionOk_readTrailer hs).1 h
    exact readTrailer_byte hs hx hd b
  | halted => exact ⟨_, .ignored hs⟩

/-- At a position of the invariant every event has a rule (41_frame_decoder.md R112). -/
theorem event_progress {s : State} (h : positionOk s = true) (e : Event) :
    ∃ t, EventStep e s t := by
  by_cases hs : s.st = .halted
  · exact ⟨_, .ignored hs⟩
  · have hr := positionReject_eq_none.2 (hasRow_of_positionOk h)
    cases e with
    | byte b => exact byte_progress h b
    | retry => exact ⟨_, .retry hs hr⟩
    | endOfStream => exact ⟨_, .eos hs hr⟩
    | fatal => exact ⟨_, .fatal hs hr⟩
    | stop => exact ⟨_, .stop hs hr⟩

/-! ### Every act of the invariant answers -/

@[simp] theorem positionOk_popAgenda (s : State) : positionOk s.popAgenda = positionOk s := rfl

@[simp] theorem positionOk_takeBeat (s : State) : positionOk s.takeBeat = positionOk s := by
  simp [positionOk, payloadPosition]

theorem rxTurn_progress {s : State} (h : positionOk s = true) : ∃ t, rxTurn s = .next t := by
  by_cases hb : s.pktTx = []
  · have hp : positionOk s.takeBeat = true := by simpa using h
    obtain ⟨t, ht⟩ := event_progress hp (portEvent s.sample)
    exact ⟨t, (rxTurn_eq hb).trans ht.handle⟩
  · exact ⟨s, rxTurn_busy hb⟩

theorem callWord_progress {c : UnitCall} (h : actOk (.call c) = true) (s : State) :
    ∃ t, runWord (callWord c) s = .next t := by
  cases c with
  | mapper p2 => exact ⟨_, runWord_mapper p2 s⟩
  | direction p2 => exact ⟨_, runWord_direction p2 s⟩
  | encode f =>
    have hf : f.wf := by simpa only [actOk, decide_eq_true_eq] using h
    exact ⟨_, runWord_frame hf s⟩

theorem doAct_progress {a : Act} {s : State} (hp : positionOk s = true) (ha : actOk a = true) :
    ∃ t, doAct a s = .next t := by
  cases a with
  | rx => exact rxTurn_progress hp
  | pkt => exact ⟨_, rfl⟩
  | ctrl => exact ⟨_, rfl⟩
  | ctrlReq enable => exact ⟨_, runWord_control enable s⟩
  | stopReq level => exact ⟨_, rfl⟩
  | rst => exact ⟨_, rfl⟩
  | call c =>
    by_cases hb : s.pktTx = []
    · rw [doAct_call c hb]
      exact callWord_progress ha s
    · exact ⟨s, by simp [doAct, State.busy, hb]⟩

/-- The eager environment calls no unit (log entry 4). -/
theorem actOk_eagerAct (s : State) : actOk (eagerAct s) = true := by
  unfold eagerAct
  split
  · rfl
  · split <;> rfl

theorem actOk_nextAct {s : State} (h : ∀ a ∈ s.agenda, actOk a = true) :
    actOk s.nextAct = true := by
  unfold State.nextAct
  cases hg : s.agenda with
  | nil => exact actOk_eagerAct s
  | cons a rest => exact h a (by simp [hg])

/-! ### The statements -/

/-- Settles O41: the invariant gives a position with a rule for every event and an act whose unit call is
defined. -/
theorem noFaultOrRefusalUnderTheInvariant : Obligations.NoFaultOrRefusalUnderTheInvariant := by
  unfold Obligations.NoFaultOrRefusalUnderTheInvariant
  intro s hinv
  obtain ⟨-, -, -, -, hpos, hagenda⟩ := hinv
  have hp : positionOk s.popAgenda = true := by simpa using hpos
  exact doAct_progress hp (actOk_nextAct hagenda)

/-- Settles O35: each act's word is decoded and executed, in the decoder's turn after `rx_ready` has
moved the beat. -/
theorem stepExecutesTheDecodedInstruction : Obligations.StepExecutesTheDecodedInstruction := by
  unfold Obligations.StepExecutesTheDecodedInstruction
  intro s i
  refine ⟨fun hact hidle hdec => ?decoderTurn, fun c hact hidle hdec => ?unitCall,
    fun enable hact hdec => ?controlRequest⟩
  case decoderTurn =>
    have hidle' : s.popAgenda.pktTx = [] := hidle
    calc step s
        = runWord (s.popAgenda.positionWord s.popAgenda.sample) s.popAgenda.takeBeat :=
          (step_of_nextAct hact).trans (doAct_rx hidle')
      _ = exec i s.popAgenda.takeBeat := runWord_of_decode hdec _
      _ = _ := congrArg (exec i) (takeBeat_of_idle hidle')
  case unitCall =>
    calc step s
        = runWord (callWord c) s.popAgenda := (step_of_nextAct hact).trans (doAct_call c hidle)
      _ = exec i s.popAgenda := runWord_of_decode hdec _
  case controlRequest =>
    calc step s
        = runWord (.control enable) s.popAgenda := step_of_nextAct hact
      _ = exec i s.popAgenda := runWord_of_decode hdec _

end Sys2Proof.Machine
end

section
/-! PROOFS. 10_state.md R27, R32; 60_exceptions.md R225: what a step emits, said once. `Emits l s t` says
that `t` has the outputs of `s` followed by `l`, and that each counter moved by exactly the outcomes in
`l`. The accounts (R27) and the four shapes of an event's outputs (R32) are read off it. -/

namespace Sys2Proof.Machine

/-! ### Counting outcomes -/

/-- The counters after one more outcome (10_state.md R27). -/
def countOutcome (w : Nat) (c : Counters) (o : CycleOutcome) : Counters where
  nOk := if isOk o then incCounter w c.nOk else c.nOk
  nErr := if isCountedError o then incCounter w c.nErr else c.nErr
  nCksum := if isCksum o then incCounter w c.nCksum else c.nCksum
  nFiltered := if isFiltered o then incCounter w c.nFiltered else c.nFiltered
  nEncErr := if isTruncated o then incCounter w c.nEncErr else c.nEncErr

/-- Each counter is the number of its outcomes modulo `2 ^ w`. -/
def accountsFor (w : Nat) (c : Counters) (os : List CycleOutcome) : Prop :=
  c.nOk = os.countP isOk % 2 ^ w ∧ c.nErr = os.countP isCountedError % 2 ^ w ∧
  c.nCksum = os.countP isCksum % 2 ^ w ∧ c.nFiltered = os.countP isFiltered % 2 ^ w ∧
  c.nEncErr = os.countP isTruncated % 2 ^ w

theorem accounted_iff (s : State) :
    s.accounted ↔ accountsFor s.cfg.cntW s.ctr (outcomesOf s.out) := Iff.rfl

/-- One counter: counting modulo `2 ^ w` is counting, then reducing. -/
theorem incCounter_countP {w c : Nat} {p : CycleOutcome → Bool} {os : List CycleOutcome}
    (o : CycleOutcome) (h : c = os.countP p % 2 ^ w) :
    (if p o then incCounter w c else c) = (os ++ [o]).countP p % 2 ^ w := by
  cases hp : p o <;> simp [h, hp, incCounter]

theorem accountsFor_snoc {w : Nat} {c : Counters} {os : List CycleOutcome} (o : CycleOutcome)
    (h : accountsFor w c os) : accountsFor w (countOutcome w c o) (os ++ [o]) := by
  obtain ⟨hok, herr, hcksum, hfiltered, henc⟩ := h
  exact ⟨incCounter_countP o hok, incCounter_countP o herr, incCounter_countP o hcksum,
    incCounter_countP o hfiltered, incCounter_countP o henc⟩

theorem accountsFor_foldl {w : Nat} {c : Counters} {os : List CycleOutcome} (os' : List CycleOutcome)
    (h : accountsFor w c os) : accountsFor w (os'.foldl (countOutcome w) c) (os ++ os') := by
  induction os' generalizing c os with
  | nil => simpa using h
  | cons o os' ih => simpa using ih (accountsFor_snoc o h)

/-! ### What an operation emits -/

/-- From `s` to `t` the outputs `l` were emitted, and exactly their outcomes were counted. -/
structure Emits (l : List Output) (s t : State) : Prop where
  cfg : t.cfg = s.cfg
  out : t.out = s.out ++ l
  ctr : t.ctr = (outcomesOf l).foldl (countOutcome s.cfg.cntW) s.ctr

theorem Emits.accounted {l : List Output} {s t : State} (h : Emits l s t) (hs : s.accounted) :
    t.accounted := by
  rw [accounted_iff, h.cfg, h.ctr, h.out, outcomesOf_append]
  exact accountsFor_foldl _ hs

theorem Emits.trans {l l' : List Output} {s t u : State} (h : Emits l s t) (h' : Emits l' t u) :
    Emits (l ++ l') s u where
  cfg := h'.cfg.trans h.cfg
  out := by rw [h'.out, h.out, List.append_assoc]
  ctr := by rw [h'.ctr, h.ctr, h.cfg, outcomesOf_append, List.foldl_append]

/-- An operation that leaves parameters, outputs and counters alone emits nothing. -/
theorem Emits.nothing {s t : State} (hcfg : t.cfg = s.cfg) (hout : t.out = s.out)
    (hctr : t.ctr = s.ctr) : Emits [] s t :=
  ⟨hcfg, by simpa using hout, hctr⟩

theorem Emits.after {l : List Output} {s t u : State} (h : Emits l t u) (hcfg : t.cfg = s.cfg)
    (hout : t.out = s.out) (hctr : t.ctr = s.ctr) : Emits l s u :=
  (Emits.nothing hcfg hout hctr).trans h

theorem raiseError_emits (e : FrameError) (s : State) :
    Emits [.outcome (errorOutcome e)] s (raiseError e s) := by
  cases e <;> exact ⟨rfl, rfl, rfl⟩

theorem filterFrame_emits (s : State) : Emits [.outcome .filteredAppId] s (filterFrame s) :=
  ⟨rfl, rfl, rfl⟩

/-- A halt emits its outcome, which must be one that no counter counts. -/
theorem haltWith_emits (c : HaltCause) {o : CycleOutcome} (s : State)
    (ho : countOutcome s.cfg.cntW s.ctr o = s.ctr) : Emits [.outcome o] s (haltWith c o s) :=
  ⟨rfl, rfl, ho.symm⟩

/-- An encode emits a packet or `EncodeTruncated` (43_gsmtap_encoder.md R180). -/
theorem encodeFrame_emits (f : Frame) (s : State) :
    Emits [.outcome .encodeTruncated] s (encodeFrame f s) ∨
      ∃ p, Emits [.packet p] s (encodeFrame f s) := by
  rcases encodeFrame_cases f s with ⟨-, h⟩ | ⟨p, -, h⟩
  · exact .inl (h ▸ ⟨rfl, rfl, rfl⟩)
  · exact .inr ⟨p, h ▸ ⟨rfl, rfl, rfl⟩⟩

/-- A dispatch emits `Ok`, then what the encode emits (41_frame_decoder.md R124). -/
theorem dispatchFrame_emits (f : Frame) (s : State) :
    Emits [.outcome (.ok f), .outcome .encodeTruncated] s (dispatchFrame f s) ∨
      ∃ p, Emits [.outcome (.ok f), .packet p] s (dispatchFrame f s) := by
  have hok : Emits [.outcome (.ok f)] s (s.countOk.emit (.outcome (.ok f))) := ⟨rfl, rfl, rfl⟩
  have hgoto (u : State) : Emits [] u (u.goto .awaitStart) := .nothing rfl rfl rfl
  rcases encodeFrame_emits f (s.countOk.emit (.outcome (.ok f))) with henc | ⟨p, henc⟩
  · exact .inl ((hok.trans henc).trans (hgoto _))
  · exact .inr ⟨p, (hok.trans henc).trans (hgoto _)⟩

/-! ### What a handled event and a step emit -/

theorem outputShape_nil : outputShape [] := .inl rfl

theorem outputShape_outcome {o : CycleOutcome} (hok : isOk o = false)
    (htrunc : isTruncated o = false) : outputShape [.outcome o] :=
  .inr (.inl ⟨o, rfl, hok, htrunc⟩)

theorem outputShape_error (e : FrameError) : outputShape [.outcome (errorOutcome e)] := by
  cases e <;> exact outputShape_outcome rfl rfl

/-- A handled event emits one of the four shapes of 10_state.md R32, and counts exactly it. -/
theorem EventStep.emits {e : Event} {s t : State} (h : EventStep e s t) :
    ∃ l, outputShape l ∧ Emits l s t := by
  cases h with
  | skip | start | appid | lenhi | empty | payload | data | lastData | fcs | retry | ignored =>
    exact ⟨[], outputShape_nil, .nothing rfl rfl rfl⟩
  | oversize => exact ⟨_, outputShape_error _, (raiseError_emits _ _).after rfl rfl rfl⟩
  | badEtx => exact ⟨_, outputShape_error _, (raiseError_emits _ _).after rfl rfl rfl⟩
  | mismatch => exact ⟨_, outputShape_error _, (raiseError_emits _ _).after rfl rfl rfl⟩
  | filtered =>
    exact ⟨_, outputShape_outcome rfl rfl, (filterFrame_emits _).after rfl rfl rfl⟩
  | @dispatch _ f =>
    rcases dispatchFrame_emits f { s with idx := 0 } with henc | ⟨p, henc⟩
    · exact ⟨_, .inr (.inr (.inr ⟨f, rfl⟩)), henc.after rfl rfl rfl⟩
    · exact ⟨_, .inr (.inr (.inl ⟨f, p, rfl⟩)), henc.after rfl rfl rfl⟩
  | eos => exact ⟨_, outputShape_outcome rfl rfl, haltWith_emits _ _ rfl⟩
  | fatal => exact ⟨_, outputShape_outcome rfl rfl, haltWith_emits _ _ rfl⟩
  | stop => exact ⟨_, outputShape_outcome rfl rfl, haltWith_emits _ _ rfl⟩

/-- Every step but reset emits some outputs and counts exactly their outcomes (60_exceptions.md R225). -/
theorem step_emits {s t : State} (hrst : s.nextAct ≠ .rst) (h : step s = .next t) :
    ∃ l, Emits l s t := by
  rcases step_cases h with ⟨-, -, rfl⟩ | ⟨-, -, e, -, hev⟩ | ⟨-, rfl⟩ | ⟨-, rfl⟩ | ⟨e, -, rfl⟩ |
    ⟨l, -, rfl⟩ | ⟨hact, -⟩ | ⟨c, -, hcall⟩
  · exact ⟨[], .nothing rfl rfl rfl⟩
  · obtain ⟨l, -, hl⟩ := hev.emits
    exact ⟨l, hl.after (by simp) (by simp) (by simp)⟩
  · exact ⟨[], .nothing (by simp) (by simp) (by simp)⟩
  · exact ⟨[], .nothing (by simp) (by simp) (by simp)⟩
  · exact ⟨[], .nothing (by simp) (by simp) (by simp)⟩
  · exact ⟨[], .nothing rfl rfl rfl⟩
  · exact absurd hact hrst
  · rcases hcall with ⟨-, rfl⟩ | ⟨-, ⟨p2, -, rfl⟩ | ⟨p2, -, rfl⟩ | ⟨f, -, -, rfl⟩⟩
    · exact ⟨[], .nothing rfl rfl rfl⟩
    · exact ⟨[], .nothing rfl rfl rfl⟩
    · exact ⟨[], .nothing rfl rfl rfl⟩
    · rcases encodeFrame_emits f s.popAgenda with henc | ⟨p, henc⟩
      · exact ⟨_, henc.after rfl rfl rfl⟩
      · exact ⟨_, henc.after rfl rfl rfl⟩

/-! ### The statements -/

/-- Settles O43: a step but reset counts exactly the outcomes it emits, and the accounts are kept by
counting one outcome at a time. -/
theorem countersEqualOutcomesEmitted : Obligations.CountersEqualOutcomesEmitted := by
  unfold Obligations.CountersEqualOutcomesEmitted
  intro s t hs hrst hstep
  obtain ⟨l, hl⟩ := step_emits hrst hstep
  exact hl.accounted hs

/-- Settles O30: the shapes come from the rule that handled the event. -/
theorem eventEmitsOneOfFourShapes : Obligations.EventEmitsOneOfFourShapes := by
  unfold Obligations.EventEmitsOneOfFourShapes
  intro e s t h
  obtain ⟨l, hshape, hl⟩ := (handleEvent_next h).emits
  exact ⟨l, hl.out, hshape⟩

end Sys2Proof.Machine
end

section
/-! PROOFS. 10_state.md R23, R29, R37: the state no port shows. `sameVisible s t` says that `t` is `s` with
other data-path registers and another buffer (`State.withData`), alike where the frame in progress has
written. Operations that look at none of these commute with `withData`; each rule of a handled event is
replayed on the other contents. -/

namespace Sys2Proof.Machine

/-! ### The data path apart from the rest -/

/-- The data-path registers and the buffer (10_state.md R23). -/
structure DataPath where
  appId : Byte
  dlen : BitVec 13
  csum : Byte
  cnt : Byte
  fcsRx : Byte
  pbuf : Memory

def State.data (s : State) : DataPath := ⟨s.appId, s.dlen, s.csum, s.cnt, s.fcsRx, s.pbuf⟩

/-- The state with other data-path contents. -/
def State.withData (d : DataPath) (s : State) : State :=
  { s with
    appId := d.appId, dlen := d.dlen, csum := d.csum, cnt := d.cnt, fcsRx := d.fcsRx, pbuf := d.pbuf }

@[simp] theorem withData_st (d : DataPath) (s : State) : (s.withData d).st = s.st := rfl
@[simp] theorem withData_idx (d : DataPath) (s : State) : (s.withData d).idx = s.idx := rfl
@[simp] theorem withData_appId (d : DataPath) (s : State) : (s.withData d).appId = d.appId := rfl
@[simp] theorem withData_dlen (d : DataPath) (s : State) : (s.withData d).dlen = d.dlen := rfl
@[simp] theorem withData_csum (d : DataPath) (s : State) : (s.withData d).csum = d.csum := rfl
@[simp] theorem withData_cnt (d : DataPath) (s : State) : (s.withData d).cnt = d.cnt := rfl
@[simp] theorem withData_fcsRx (d : DataPath) (s : State) : (s.withData d).fcsRx = d.fcsRx := rfl
@[simp] theorem withData_pbuf (d : DataPath) (s : State) : (s.withData d).pbuf = d.pbuf := rfl
@[simp] theorem withData_cfg (d : DataPath) (s : State) : (s.withData d).cfg = s.cfg := rfl
@[simp] theorem withData_pktTx (d : DataPath) (s : State) : (s.withData d).pktTx = s.pktTx := rfl
@[simp] theorem withData_ctrlTx (d : DataPath) (s : State) : (s.withData d).ctrlTx = s.ctrlTx := rfl
@[simp] theorem withData_rxReady (d : DataPath) (s : State) : (s.withData d).rxReady = s.rxReady := rfl

@[simp] theorem withData_data (s : State) : s.withData s.data = s := rfl

/-- Between a state and the same with other contents, only live contents can be visible. -/
theorem sameVisible_withData {d : DataPath} {s : State} :
    sameVisible s (s.withData d) ↔ sameLive s (s.withData d) := by
  constructor
  · rintro ⟨-, -, -, -, -, -, -, -, -, -, -, -, -, -, -, hlive⟩
    exact hlive
  · intro hlive
    exact ⟨rfl, rfl, rfl, rfl, rfl, rfl, rfl, rfl, rfl, rfl, rfl, rfl, rfl, rfl, rfl, hlive⟩

/-- A state visibly the same is the state with other contents. -/
theorem eq_withData_of_sameVisible {s t : State} (h : sameVisible s t) : t = s.withData t.data := by
  obtain ⟨hcfg, hst, hidx, hcause, hctr, hpkt, hctrl, hmap, hdir, hout, hplog, hclog, hsrc, hstop,
    hagenda, -⟩ := h
  simp only [State.withData, State.data, hcfg, hst, hidx, hcause, hctr, hpkt, hctrl, hmap, hdir, hout,
    hplog, hclog, hsrc, hstop, hagenda]

/-! ### What is live at each position -/

theorem sameLive_awaitStart {s t : State} (hs : s.st = .awaitStart) : sameLive s t := by
  simp [sameLive, hs]

theorem sameLive_halted {s t : State} (hs : s.st = .halted) : sameLive s t := by
  simp [sameLive, hs]

/-- No register of a frame is written before its AppID. -/
theorem sameLive_headerStart {s t : State} (hs : s.st = .readHeader) (hx : s.idx = 0) :
    sameLive s t := by
  simp [sameLive, hs, hx]

theorem sameLive_lenHi {s t : State} (hs : s.st = .readHeader) (hx : s.idx = 1) :
    sameLive s t ↔ s.appId = t.appId ∧ s.csum = t.csum := by
  simp [sameLive, hs, hx]

theorem sameLive_lenLo {s t : State} (hs : s.st = .readHeader) (hx : s.idx = 2) :
    sameLive s t ↔ s.appId = t.appId ∧ s.csum = t.csum ∧ s.dlen = t.dlen := by
  simp [sameLive, hs, hx, and_assoc]

theorem sameLive_readPayload {s t : State} (hs : s.st = .readPayload) :
    sameLive s t ↔ s.appId = t.appId ∧ s.csum = t.csum ∧ s.dlen = t.dlen ∧ s.cnt = t.cnt ∧
      sameBelow s.pbuf t.pbuf s.cnt.toNat := by
  simp [sameLive, hs]

theorem sameLive_fcs {s t : State} (hs : s.st = .readTrailer) (hx : s.idx = 0) :
    sameLive s t ↔ s.appId = t.appId ∧ s.csum = t.csum ∧ s.dlen = t.dlen ∧
      sameBelow s.pbuf t.pbuf s.dlen.toNat := by
  simp [sameLive, hs, hx]

theorem sameLive_terminator {s t : State} (hs : s.st = .readTrailer) (hx : s.idx = 1) :
    sameLive s t ↔ s.appId = t.appId ∧ s.csum = t.csum ∧ s.dlen = t.dlen ∧ s.fcsRx = t.fcsRx ∧
      sameBelow s.pbuf t.pbuf s.dlen.toNat := by
  simp [sameLive, hs, hx]

/-! ### Buffers alike below an index -/

theorem sameBelow_zero (m m' : Memory) : sameBelow m m' 0 := fun _ hk => absurd hk (Nat.not_lt_zero _)

/-- The same byte stored at the first index not yet written. -/
theorem sameBelow_store {m m' : Memory} {n : Nat} (v : Byte) (h : sameBelow m m' n) :
    sameBelow (memStore m n v) (memStore m' n v) (n + 1) := by
  intro k hk
  rw [memByte_memStore, memByte_memStore]
  split
  · rfl
  · exact h k (by omega)

theorem memReadBytes_of_sameBelow {m m' : Memory} {n : Nat} {p : List Byte} (h : sameBelow m m' n)
    (hp : memReadBytes m 0 n = .ok p) : memReadBytes m' 0 n = .ok p := by
  obtain ⟨hlen, hread⟩ := memReadBytes_ok.1 hp
  refine memReadBytes_ok.2 ⟨hlen, fun i hi => ?_⟩
  obtain ⟨hcap, hbyte⟩ := memRead_ok.1 (hread i hi)
  exact memRead_ok.2 ⟨hcap, (h (0 + i) (by omega)).symm.trans hbyte⟩

/-! ### Operations that ignore the data path -/

/-- The operation looks at no data-path register and no buffer byte, and changes none. -/
def IgnoresData (f : State → State) : Prop := ∀ d s, f (s.withData d) = (f s).withData d

theorem IgnoresData.data {f : State → State} (hf : IgnoresData f) (s : State) :
    (f s).data = s.data := by
  have h : f s = (f s).withData s.data := hf s.data s
  rw [h]
  rfl

theorem ignoresData_takePkt : IgnoresData State.takePkt := by
  intro d s
  simp only [State.takePkt, withData_pktTx]
  split <;> rfl

theorem ignoresData_takeCtrl : IgnoresData State.takeCtrl := by
  intro d s
  simp only [State.takeCtrl, withData_ctrlTx]
  split <;> rfl

theorem ignoresData_takeBeat : IgnoresData State.takeBeat := by
  intro d s
  simp only [State.takeBeat, withData_rxReady, apply_ite (State.withData d)]
  rfl

theorem ignoresData_requestControl (enable : Bool) : IgnoresData (State.requestControl enable) := by
  intro d s
  simp only [State.requestControl, withData_ctrlTx, apply_ite (State.withData d)]
  rfl

theorem ignoresData_encodeFrame (f : Frame) : IgnoresData (encodeFrame f) := by
  intro d s
  simp only [encodeFrame, withData_cfg]
  split <;> rfl

theorem ignoresData_dispatchFrame (f : Frame) : IgnoresData (dispatchFrame f) := fun d s =>
  congrArg (State.goto .awaitStart) (ignoresData_encodeFrame f d (s.countOk.emit (.outcome (.ok f))))

/-- An operation that ignores the data path and keeps the position keeps liveness. -/
theorem IgnoresData.sameLive {f : State → State} {s : State} {d : DataPath} (hf : IgnoresData f)
    (hst : (f s).st = s.st) (hidx : (f s).idx = s.idx) (h : sameLive s (s.withData d)) :
    sameLive (f s) ((f s).withData d) := by
  have hdata := hf.data s
  simp only [State.data, DataPath.mk.injEq] at hdata
  obtain ⟨happ, hdlen, hcsum, hcnt, hfcs, hbuf⟩ := hdata
  simpa only [Machine.sameLive, withData_appId, withData_dlen, withData_csum, withData_cnt,
    withData_fcsRx, withData_pbuf, hst, hidx, happ, hdlen, hcsum, hcnt, hfcs, hbuf] using h

/-! ### A handled event on other contents -/

/-- At a payload position the byte counter counts up without a wrap (20_memory.md R51). -/
theorem toNat_cnt_succ {s : State} (hp : payloadPosition s = true) :
    (s.cnt + 1).toNat = s.cnt.toNat + 1 := by
  have := (payloadPosition_iff s).1 hp
  rw [BitVec.toNat_add]
  simp
  omega

/-- A payload byte on other contents: the position is the same, and so is what the byte leaves live. -/
theorem payload_withData {d : DataPath} {s : State} (b : Byte) (hs : s.st = .readPayload)
    (hp : payloadPosition s = true) (hlive : sameLive s (s.withData d)) :
    payloadPosition (s.withData d) = true ∧ lastPayload (s.withData d) = lastPayload s ∧
      s.appId = d.appId ∧ fold s.csum b = fold d.csum b ∧ s.dlen = d.dlen ∧ s.cnt + 1 = d.cnt + 1 ∧
      sameBelow (memStore s.pbuf s.cnt.toNat b) (memStore d.pbuf d.cnt.toNat b) (s.cnt + 1).toNat := by
  obtain ⟨happ, hcsum, hdlen, hcnt, hbuf⟩ := (sameLive_readPayload hs).1 hlive
  simp only [withData_appId, withData_csum, withData_dlen, withData_cnt, withData_pbuf]
    at happ hcsum hdlen hcnt hbuf
  refine ⟨?_, ?_, happ, congrArg (fold · b) hcsum, hdlen, congrArg (· + 1) hcnt, ?_⟩
  · simpa [payloadPosition, ← hdlen, ← hcnt] using hp
  · simp [lastPayload, ← hdlen, ← hcnt]
  · rw [toNat_cnt_succ hp, ← hcnt]
    exact sameBelow_store b hbuf

section Terminator
variable {d : DataPath} {s : State} (hs : s.st = .readTrailer) (hx : s.idx = 1)
  (hlive : sameLive s (s.withData d))
include hs hx hlive

theorem fcsOk_withData : fcsOk (s.withData d) = fcsOk s := by
  obtain ⟨-, hcsum, -, hfcs, -⟩ := (sameLive_terminator hs hx).1 hlive
  simp only [fcsOk, hcsum, hfcs]

theorem traceApp_withData : traceApp (s.withData d) = traceApp s := by
  obtain ⟨happ, -⟩ := (sameLive_terminator hs hx).1 hlive
  simp only [traceApp, happ]

/-- The record built at dispatch is of live contents only. -/
theorem readFrame_withData {f : Frame} (h : readFrame s = .ok f) :
    readFrame (s.withData d) = .ok f := by
  obtain ⟨happ, -, hdlen, hfcs, hbuf⟩ := (sameLive_terminator hs hx).1 hlive
  unfold readFrame at h
  split at h
  · cases h
  · next p hp =>
    have hp' := memReadBytes_of_sameBelow hbuf hp
    rw [hdlen] at hp'
    cases h
    simp only [readFrame, hp', happ, hfcs]

end Terminator

/-- With other contents, alike where the frame has written, the same rule applies and keeps them alike. -/
theorem EventStep.withData {e : Event} {s s' : State} {d : DataPath} (h : EventStep e s s')
    (hlive : sameLive s (s.withData d)) :
    ∃ d', EventStep e (s.withData d) (s'.withData d') ∧ sameLive s' (s'.withData d') := by
  cases h with
  | skip hs hb => exact ⟨d, .skip hs hb, hlive⟩
  | start hs => exact ⟨d, .start hs, sameLive_headerStart rfl rfl⟩
  | @appid _ b hs hx =>
    exact ⟨{ d with appId := b, csum := fold 0 b }, .appid hs hx,
      Iff.mpr (sameLive_lenHi hs rfl) ⟨rfl, rfl⟩⟩
  | @lenhi _ b hs hx =>
    obtain ⟨happ, hcsum⟩ := (sameLive_lenHi hs hx).1 hlive
    exact ⟨{ d with dlen := dlenFromHi b, csum := fold d.csum b }, .lenhi hs hx,
      Iff.mpr (sameLive_lenLo hs rfl) ⟨happ, congrArg (fold · b) hcsum, rfl⟩⟩
  | @oversize _ b hs hx ho =>
    obtain ⟨-, -, hdlen⟩ := (sameLive_lenLo hs hx).1 hlive
    rw [hdlen] at ho
    exact ⟨(afterLenLo (s.withData d) b).data, .oversize hs hx ho, sameLive_awaitStart rfl⟩
  | @empty _ b hs hx ho he =>
    obtain ⟨happ, hcsum, hdlen⟩ := (sameLive_lenLo hs hx).1 hlive
    have hlen : dlenWithLo s.dlen b = dlenWithLo d.dlen b := congrArg (dlenWithLo · b) hdlen
    refine ⟨(afterLenLo (s.withData d) b).data, .empty hs hx (hlen ▸ ho) (hlen ▸ he),
      Iff.mpr (sameLive_fcs rfl rfl) ⟨happ, congrArg (fold · b) hcsum, hlen, ?_⟩⟩
    have hzero : (dlenWithLo s.dlen b).toNat = 0 := (emptyLength_iff _).1 he
    show sameBelow s.pbuf d.pbuf (dlenWithLo s.dlen b).toNat
    rw [hzero]
    exact sameBelow_zero _ _
  | @payload _ b hs hx ho he =>
    obtain ⟨happ, hcsum, hdlen⟩ := (sameLive_lenLo hs hx).1 hlive
    have hlen : dlenWithLo s.dlen b = dlenWithLo d.dlen b := congrArg (dlenWithLo · b) hdlen
    exact ⟨(afterLenLo (s.withData d) b).data, .payload hs hx (hlen ▸ ho) (hlen ▸ he),
      Iff.mpr (sameLive_readPayload rfl)
        ⟨happ, congrArg (fold · b) hcsum, hlen, rfl, sameBelow_zero _ _⟩⟩
  | @data _ b hs hp hl =>
    obtain ⟨hp', hl', happ, hcsum, hdlen, hcnt, hbuf⟩ := payload_withData b hs hp hlive
    exact ⟨(afterData (s.withData d) b).data, .data hs hp' (hl'.trans hl),
      Iff.mpr (sameLive_readPayload hs) ⟨happ, hcsum, hdlen, hcnt, hbuf⟩⟩
  | @lastData _ b hs hp hl =>
    obtain ⟨hp', hl', happ, hcsum, hdlen, -, hbuf⟩ := payload_withData b hs hp hlive
    refine ⟨(afterData (s.withData d) b).data, .lastData hs hp' (hl'.trans hl),
      Iff.mpr (sameLive_fcs rfl rfl) ⟨happ, hcsum, hdlen, ?_⟩⟩
    have hcount : (afterData s b).cnt.toNat = s.dlen.toNat :=
      (toNat_cnt_succ hp).trans ((lastPayload_iff s).1 hl)
    exact hcount ▸ hbuf
  | @fcs _ b hs hx =>
    obtain ⟨happ, hcsum, hdlen, hbuf⟩ := (sameLive_fcs hs hx).1 hlive
    exact ⟨{ d with fcsRx := b }, .fcs hs hx,
      Iff.mpr (sameLive_terminator hs rfl) ⟨happ, hcsum, hdlen, rfl, hbuf⟩⟩
  | badEtx hs hx hb => exact ⟨d, .badEtx hs hx hb, sameLive_awaitStart rfl⟩
  | mismatch hs hx hf =>
    exact ⟨d, .mismatch hs hx ((fcsOk_withData hs hx hlive).trans hf), sameLive_awaitStart rfl⟩
  | filtered hs hx hf ha =>
    exact ⟨d, .filtered hs hx ((fcsOk_withData hs hx hlive).trans hf)
      ((traceApp_withData hs hx hlive).trans ha), sameLive_awaitStart rfl⟩
  | @dispatch _ f hs hx hf ha hr =>
    have hstep : EventStep (.byte etx) (s.withData d)
        (dispatchFrame f ({ s with idx := 0 }.withData d)) :=
      .dispatch hs hx ((fcsOk_withData hs hx hlive).trans hf)
        ((traceApp_withData hs hx hlive).trans ha) (readFrame_withData hs hx hlive hr)
    rw [ignoresData_dispatchFrame] at hstep
    exact ⟨d, hstep, sameLive_awaitStart rfl⟩
  | retry hs hr => exact ⟨d, .retry hs hr, hlive⟩
  | eos hs hr => exact ⟨d, .eos hs hr, sameLive_halted rfl⟩
  | fatal hs hr => exact ⟨d, .fatal hs hr, sameLive_halted rfl⟩
  | stop hs hr => exact ⟨d, .stop hs hr, sameLive_halted rfl⟩
  | ignored hs => exact ⟨d, .ignored hs, hlive⟩

/-! ### A step on other contents -/

theorem doAct_call_busy {s : State} (c : UnitCall) (h : s.pktTx ≠ []) :
    doAct (.call c) s = .next s := by
  simp [doAct, State.busy, h]

/-- An act that runs an operation ignoring the data path, wherever the serialiser is as in `s`. -/
theorem step_withData_of_ignores {s : State} {d : DataPath} {a : Act} {f : State → State}
    (hact : s.nextAct = a) (hdo : ∀ u : State, u.pktTx = s.pktTx → doAct a u = .next (f u))
    (hf : IgnoresData f) (hlive : sameLive (f s.popAgenda) ((f s.popAgenda).withData d)) :
    ∃ d', step (s.withData d) = .next ((f s.popAgenda).withData d') ∧
      sameLive (f s.popAgenda) ((f s.popAgenda).withData d') := by
  refine ⟨d, ?_, hlive⟩
  calc step (s.withData d)
      = doAct a (s.popAgenda.withData d) := step_of_nextAct (s := s.withData d) hact
    _ = .next (f (s.popAgenda.withData d)) := hdo _ rfl
    _ = .next ((f s.popAgenda).withData d) := by rw [hf]

/-- Two states with the same live contents step alike and stay so. -/
theorem step_withData {s s' : State} {d : DataPath} (hstep : step s = .next s')
    (hlive : sameLive s (s.withData d)) :
    ∃ d', step (s.withData d) = .next (s'.withData d') ∧ sameLive s' (s'.withData d') := by
  have hpop : sameLive s.popAgenda (s.popAgenda.withData d) := hlive
  have hid : IgnoresData id := fun _ _ => rfl
  rcases step_cases hstep with ⟨hact, hbusy, rfl⟩ | ⟨hact, hidle, e, he, hev⟩ | ⟨hact, rfl⟩ |
    ⟨hact, rfl⟩ | ⟨enable, hact, rfl⟩ | ⟨l, hact, rfl⟩ | ⟨hact, rfl⟩ | ⟨c, hact, hcall⟩
  · exact step_withData_of_ignores hact (fun u hu => rxTurn_busy (hu ▸ hbusy)) hid hpop
  · have hbeat := ignoresData_takeBeat.sameLive (by simp) (by simp) hpop
    obtain ⟨d', hev', hlive'⟩ := hev.withData hbeat
    refine ⟨d', ?_, hlive'⟩
    have hturn := rxTurn_eq (s := s.popAgenda.withData d) hidle
    rw [ignoresData_takeBeat] at hturn
    calc step (s.withData d)
        = rxTurn (s.popAgenda.withData d) := step_of_nextAct (s := s.withData d) hact
      _ = handleEvent (portEvent s.sample) (s.popAgenda.takeBeat.withData d) := hturn
      _ = .next (s'.withData d') := by rw [he]; exact hev'.handle
  · exact step_withData_of_ignores hact (fun _ _ => rfl) ignoresData_takePkt
      (ignoresData_takePkt.sameLive (by simp) (by simp) hpop)
  · exact step_withData_of_ignores hact (fun _ _ => rfl) ignoresData_takeCtrl
      (ignoresData_takeCtrl.sameLive (by simp) (by simp) hpop)
  · exact step_withData_of_ignores hact (fun u _ => runWord_control enable u)
      (ignoresData_requestControl enable)
      ((ignoresData_requestControl enable).sameLive (by simp) (by simp) hpop)
  · exact step_withData_of_ignores (f := State.setStop l) hact (fun _ _ => rfl) (fun _ _ => rfl) hpop
  · exact step_withData_of_ignores hact (fun _ _ => rfl) (f := State.applyReset) (fun _ _ => rfl)
      (d := d) (sameLive_awaitStart rfl)
  · rcases hcall with ⟨hbusy, rfl⟩ | ⟨hidle, hunit⟩
    · exact step_withData_of_ignores hact (fun u hu => doAct_call_busy c (hu ▸ hbusy)) hid hpop
    have hdo (u : State) (hu : u.pktTx = s.pktTx) : doAct (.call c) u = runWord (callWord c) u :=
      doAct_call c (hu.trans hidle)
    rcases hunit with ⟨p2, rfl, rfl⟩ | ⟨p2, rfl, rfl⟩ | ⟨f, rfl, hwf, rfl⟩
    · exact step_withData_of_ignores (f := State.lookup (formatCode p2)) hact
        (fun u hu => (hdo u hu).trans (runWord_mapper p2 u)) (fun _ _ => rfl) hpop
    · exact step_withData_of_ignores (f := State.direction (isUplink p2)) hact
        (fun u hu => (hdo u hu).trans (runWord_direction p2 u)) (fun _ _ => rfl) hpop
    · exact step_withData_of_ignores hact
        (fun u hu => (hdo u hu).trans (runWord_frame hwf u)) (ignoresData_encodeFrame f)
        ((ignoresData_encodeFrame f).sameLive (by simp) (by simp) hpop)

/-! ### Runs -/

theorem runSteps_succ {n : Nat} {s t : State} (h : step s = .next t) :
    runSteps (n + 1) s = runSteps n t := by
  have hcore : Sys2Proof.core.step s = .next t := h
  simp only [runSteps, Host.Core.run, hcore]
  rfl

/-- A run that answers begins with a step that answers. -/
theorem runSteps_succ_next {n : Nat} {s s' : State} (h : runSteps (n + 1) s = .next s') :
    ∃ t, step s = .next t ∧ runSteps n t = .next s' := by
  simp only [runSteps, Host.Core.run] at h
  split at h
  · next t ht => exact ⟨t, ht, h⟩
  · cases h
  · cases h

/-! ### The statements -/

/-- Settles O50: the second state is the first with other contents, and a step on those answers alike. -/
theorem staleRegistersNeverReachAnOutput : Obligations.StaleRegistersNeverReachAnOutput := by
  unfold Obligations.StaleRegistersNeverReachAnOutput
  intro s t s' hsame hstep
  have ht := eq_withData_of_sameVisible hsame
  rw [ht] at hsame ⊢
  obtain ⟨d', hstep', hlive'⟩ := step_withData hstep (sameVisible_withData.1 hsame)
  exact ⟨_, hstep', sameVisible_withData.2 hlive'⟩

/-- Visible sameness is kept along a run. -/
theorem runSteps_sameVisible {n : Nat} {s t s' : State} (hsame : sameVisible s t)
    (hrun : runSteps n s = .next s') : ∃ t', runSteps n t = .next t' ∧ sameVisible s' t' := by
  induction n generalizing s t with
  | zero =>
    cases hrun
    exact ⟨t, rfl, hsame⟩
  | succ n ih =>
    obtain ⟨u, hstep, hrest⟩ := runSteps_succ_next hrun
    obtain ⟨v, hstep', hsame'⟩ := staleRegistersNeverReachAnOutput s t u hsame hstep
    rw [runSteps_succ hstep']
    exact ih hsame' hrest

/-- Settles O55: in `AwaitStart` nothing is live, so any contents are visibly the same. -/
theorem unspecifiedResetContentsNeverMatter : Obligations.UnspecifiedResetContentsNeverMatter := by
  unfold Obligations.UnspecifiedResetContentsNeverMatter
  intro n s s' appId csum cnt fcsRx dlen pbuf hs hrun
  exact runSteps_sameVisible
    (sameVisible_withData (d := ⟨appId, dlen, csum, cnt, fcsRx, pbuf⟩).2 (sameLive_awaitStart hs)) hrun

end Sys2Proof.Machine
end

section
/-! PROOFS. 10_state.md R34 to R38: the streams, the control interface and the ports. What a handled event
leaves alone is said once (`EventStep.keeps_streamPart`); the rest is per act. -/

namespace Sys2Proof.Machine

/-! ### What a handled event and a step leave to the streams -/

/-- The control serialiser and both records of bytes taken: no rule of the decoder touches them. -/
def streamPart (s : State) : List Beat × List Beat × List Beat := (s.ctrlTx, s.ctrlLog, s.pktLog)

theorem streamPart_eq {s t : State} (h : streamPart t = streamPart s) :
    t.ctrlTx = s.ctrlTx ∧ t.ctrlLog = s.ctrlLog ∧ t.pktLog = s.pktLog := by
  simpa only [streamPart, Prod.mk.injEq] using h

@[simp] theorem streamPart_raiseError (e : FrameError) (s : State) :
    streamPart (raiseError e s) = streamPart s := by
  simp [streamPart]

@[simp] theorem streamPart_encodeFrame (f : Frame) (s : State) :
    streamPart (encodeFrame f s) = streamPart s := by
  simp [streamPart]

@[simp] theorem streamPart_takeBeat (s : State) : streamPart s.takeBeat = streamPart s := by
  simp [streamPart]

/-- A handled event offers the requester nothing and takes no byte (10_state.md R36). -/
theorem EventStep.keeps_streamPart {e : Event} {s t : State} (h : EventStep e s t) :
    streamPart t = streamPart s := by
  cases h with
  | skip | start | appid | lenhi | empty | payload | data | lastData | fcs | filtered => rfl
  | retry | eos | fatal | stop | ignored => rfl
  | oversize => exact streamPart_raiseError _ _
  | badEtx => exact streamPart_raiseError _ _
  | mismatch => exact streamPart_raiseError _ _
  | @dispatch _ f => exact streamPart_encodeFrame f _

/-- A step moves the streams only in a taking, a control request or a reset. -/
theorem step_streamPart {s t : State} (h : step s = .next t) :
    streamPart t = streamPart s ∨ (s.nextAct = .pkt ∧ t = s.popAgenda.takePkt) ∨
      (s.nextAct = .ctrl ∧ t = s.popAgenda.takeCtrl) ∨
      (∃ enable, s.nextAct = .ctrlReq enable ∧ t = s.popAgenda.requestControl enable) ∨
      (s.nextAct = .rst ∧ t = s.popAgenda.applyReset) := by
  rcases step_cases h with ⟨-, -, rfl⟩ | ⟨-, -, e, -, hev⟩ | hpkt | hctrl | hreq | ⟨l, -, rfl⟩ |
    hrst | ⟨c, -, hcall⟩
  · exact .inl rfl
  · exact .inl (hev.keeps_streamPart.trans (streamPart_takeBeat _))
  · exact .inr (.inl hpkt)
  · exact .inr (.inr (.inl hctrl))
  · exact .inr (.inr (.inr (.inl hreq)))
  · exact .inl rfl
  · exact .inr (.inr (.inr (.inr hrst)))
  · rcases hcall with ⟨-, rfl⟩ | ⟨-, ⟨p2, -, rfl⟩ | ⟨p2, -, rfl⟩ | ⟨f, -, -, rfl⟩⟩
    · exact .inl rfl
    · exact .inl rfl
    · exact .inl rfl
    · exact .inl (streamPart_encodeFrame f _)

/-! ### Takings and requests -/

/-- A taking appends the offered byte, if there is one, to the sink's record. -/
theorem takePkt_pktLog (s : State) : s.takePkt.pktLog = s.pktLog ++ s.pktTx.take 1 := by
  unfold State.takePkt
  split
  · next h => simp [h]
  · next h => simp [h]

theorem takeCtrl_ctrlLog (s : State) : s.takeCtrl.ctrlLog = s.ctrlLog ++ s.ctrlTx.take 1 := by
  unfold State.takeCtrl
  split
  · next h => simp [h]
  · next h => simp [h]

theorem takeCtrl_frame (s : State) :
    s.takeCtrl = { s with ctrlTx := s.takeCtrl.ctrlTx, ctrlLog := s.takeCtrl.ctrlLog } := by
  unfold State.takeCtrl
  split <;> rfl

theorem requestControl_frame (enable : Bool) (s : State) :
    s.requestControl enable = { s with ctrlTx := (s.requestControl enable).ctrlTx } := by
  unfold State.requestControl
  split <;> rfl

theorem step_ctrl {s t : State} (hact : s.nextAct = .ctrl) (h : step s = .next t) :
    t = s.popAgenda.takeCtrl := by
  rw [step_of_nextAct hact] at h
  exact (Host.Outcome.next.inj h).symm

theorem step_ctrlReq {s t : State} {enable : Bool} (hact : s.nextAct = .ctrlReq enable)
    (h : step s = .next t) : t = s.popAgenda.requestControl enable := by
  rw [step_of_nextAct hact, doAct, runWord_control] at h
  exact (Host.Outcome.next.inj h).symm

/-- An act that is neither of the control interface nor reset leaves the control stream alone. -/
theorem step_keeps_control {s t : State} (hctrl : s.nextAct ≠ .ctrl)
    (hreq : ∀ enable, s.nextAct ≠ .ctrlReq enable) (hrst : s.nextAct ≠ .rst)
    (h : step s = .next t) : t.ctrlTx = s.ctrlTx ∧ t.ctrlLog = s.ctrlLog := by
  rcases step_streamPart h with hsame | ⟨-, rfl⟩ | ⟨hact, -⟩ | ⟨enable, hact, -⟩ | ⟨hact, -⟩
  · obtain ⟨htx, hlog, -⟩ := streamPart_eq hsame
    exact ⟨htx, hlog⟩
  · exact ⟨by simp, by simp⟩
  · exact absurd hact hctrl
  · exact absurd hact (hreq enable)
  · exact absurd hact hrst

/-! ### The packet drained by the eager environment -/

/-- With an empty agenda and a packet being sent the eager environment takes its next byte. -/
theorem step_eager_busy {s : State} {b : Beat} {rest : List Beat} (hagenda : s.agenda = [])
    (hpkt : s.pktTx = b :: rest) :
    step s = .next { s with pktTx := rest, pktLog := s.pktLog ++ [b] } := by
  have hact : s.nextAct = .pkt := by
    simp [State.nextAct, hagenda, eagerAct, State.busy, hpkt]
  have htake : s.popAgenda.takePkt = { s with pktTx := rest, pktLog := s.pktLog ++ [b] } := by
    simp [State.takePkt, State.popAgenda, hagenda, hpkt]
  rw [step_of_nextAct hact, ← htake, doAct]

/-! ### The statements -/

/-- Settles O23: the control acts are two operations with the frame `takeCtrl_frame` and
`requestControl_frame`. -/
theorem controlAndDecoderShareNoState : Obligations.ControlAndDecoderShareNoState := by
  unfold Obligations.ControlAndDecoderShareNoState
  intro s t h
  refine ⟨?controlActs, fun hctrl hreq hrst => step_keeps_control hctrl hreq hrst h⟩
  case controlActs =>
    rintro (hact | ⟨enable, hact⟩)
    · rw [step_ctrl hact h]
      exact takeCtrl_frame s.popAgenda
    · rw [step_ctrlReq hact h]
      have hlog : (s.popAgenda.requestControl enable).ctrlLog = s.ctrlLog := by simp
      rw [hlog]
      exact requestControl_frame enable s.popAgenda

/-- Settles O53: a taking moves the offered byte to the record, a request loads an idle serialiser, and
no other act touches the control stream. -/
theorem controlStreamIsRequestsInOrder : Obligations.ControlStreamIsRequestsInOrder := by
  unfold Obligations.ControlStreamIsRequestsInOrder
  intro s t hrst h
  refine ⟨fun enable hact hidle => ?idleRequest, ?otherSteps, fun hact => ?taking⟩
  case idleRequest =>
    rw [step_ctrlReq hact h]
    simp [requestControl_ctrlTx, hidle]
  case otherSteps =>
    intro hother
    by_cases hctrl : s.nextAct = .ctrl
    · rw [step_ctrl hctrl h]
      exact takeCtrl_stream s.popAgenda
    by_cases hreq : ∃ enable, s.nextAct = .ctrlReq enable
    · obtain ⟨enable, hact⟩ := hreq
      have hbusy : s.ctrlTx ≠ [] := hother.resolve_left fun hno => hno enable hact
      rw [step_ctrlReq hact h]
      simp [requestControl_ctrlTx, hbusy]
    · obtain ⟨htx, hlog⟩ := step_keeps_control hctrl (not_exists.1 hreq) hrst h
      rw [htx, hlog]
  case taking =>
    rw [step_ctrl hact h]
    exact takeCtrl_ctrlTx s.popAgenda

/-- Settles O51: outputs grow by what a step emits, the records by what it takes. -/
theorem parametersFixedAndOutputsNeverWithdrawn :
    Obligations.ParametersFixedAndOutputsNeverWithdrawn := by
  unfold Obligations.ParametersFixedAndOutputsNeverWithdrawn
  intro s t h
  have hcfgOut : t.cfg = s.cfg ∧ ∃ l, t.out = s.out ++ l := by
    by_cases hrst : s.nextAct = .rst
    · rw [step_of_nextAct hrst] at h
      cases h
      exact ⟨rfl, [], by simp⟩
    · obtain ⟨l, hl⟩ := step_emits hrst h
      exact ⟨hl.cfg, l, hl.out⟩
  obtain ⟨hcfg, hout⟩ := hcfgOut
  refine ⟨hcfg, hout, ?records⟩
  case records =>
    rcases step_streamPart h with hsame | ⟨-, rfl⟩ | ⟨-, rfl⟩ | ⟨enable, -, rfl⟩ | ⟨-, rfl⟩
    · obtain ⟨-, hctrlLog, hpktLog⟩ := streamPart_eq hsame
      exact ⟨⟨[], by simp [hpktLog]⟩, ⟨[], by simp [hctrlLog]⟩⟩
    · exact ⟨⟨_, takePkt_pktLog s.popAgenda⟩, ⟨[], by simp⟩⟩
    · exact ⟨⟨[], by simp⟩, ⟨_, takeCtrl_ctrlLog s.popAgenda⟩⟩
    · exact ⟨⟨[], by simp⟩, ⟨[], by simp⟩⟩
    · exact ⟨⟨[], by simp⟩, ⟨[], by simp⟩⟩

/-- Settles O37, by induction on the bytes the serialiser holds. -/
theorem eagerSinkDrainsThePacket : Obligations.EagerSinkDrainsThePacket := by
  unfold Obligations.EagerSinkDrainsThePacket
  intro s hagenda
  generalize hpkt : s.pktTx = bytes
  induction bytes generalizing s with
  | nil =>
    have hsame : { s with pktTx := [], pktLog := s.pktLog ++ [] } = s := by
      rw [List.append_nil, ← hpkt]
    exact congrArg Host.Outcome.next hsame.symm
  | cons b rest ih =>
    rw [List.length_cons, runSteps_succ (step_eager_busy hagenda hpkt)]
    simpa using ih { s with pktTx := rest, pktLog := s.pktLog ++ [b] } hagenda rfl

/-- Settles O36: the decoder's turn on a busy core is no step; with the stop level high the ports stand
for `Stop`, and `rx_ready` is low, so the beat stays. -/
theorem busyDefersAndStopWinsOverBeat : Obligations.BusyDefersAndStopWinsOverBeat := by
  unfold Obligations.BusyDefersAndStopWinsOverBeat
  intro s hact
  refine ⟨fun hbusy => ?busy, fun hidle hstop hhalt hrow => ?stop⟩
  case busy =>
    exact (step_of_nextAct hact).trans (rxTurn_busy (s := s.popAgenda) hbusy)
  case stop =>
    have hevent : portEvent s.popAgenda.sample = .stop := by
      simp [portEvent, State.sample, hstop]
    have hbeat : s.popAgenda.takeBeat = s.popAgenda := by
      simp [State.takeBeat, State.rxReady, hstop]
    have hrule : EventStep .stop s.popAgenda (haltWith .stopped .stopped s.popAgenda) :=
      .stop hhalt (positionReject_eq_none.2 hrow)
    calc step s
        = rxTurn s.popAgenda := step_of_nextAct hact
      _ = handleEvent .stop s.popAgenda := by
          rw [rxTurn_eq (s := s.popAgenda) hidle, hevent, hbeat]
      _ = .next (haltWith .stopped .stopped s.popAgenda) := hrule.handle

/-- The default parameters meet every constraint the spec puts on them (00_scope.md R8). -/
theorem defaultParams_ok : defaultParams.ok := by
  decide

/-- Settles O39: the values of R37, each invariant at them. -/
theorem resetStateMeetsTheInvariants : Obligations.ResetStateMeetsTheInvariants := by
  unfold Obligations.ResetStateMeetsTheInvariants
  have hcounters : countersOk State.reset := by decide
  have hinv : State.reset.inv :=
    ⟨defaultParams_ok, hcounters, by decide, Memory.wf_nil, rfl, by simp [State.reset]⟩
  have haccounts : State.reset.accounted :=
    ⟨rfl, rfl, rfl, rfl, rfl⟩
  exact ⟨hinv, trivial, haccounts, rfl, rfl, rfl, rfl, rfl, rfl, rfl⟩

/-- Equal codes mean equal states, because a code reads back. -/
theorem code_inj {d d' : DecState} : d.code = d'.code ↔ d = d' := by
  constructor
  · intro h
    exact Option.some.inj (by rw [← ofCode_code d, h, ofCode_code])
  · exact congrArg DecState.code

theorem haltCauseCode_inj {c c' : HaltCause} : haltCauseCode c = haltCauseCode c' ↔ c = c' := by
  cases c <;> cases c' <;> decide

theorem haltedPort_iff (s : State) : s.haltedPort = true ↔ s.stPort = 4 :=
  decide_eq_true_iff.trans (code_inj (d' := .halted)).symm

/-- Settles O54: the ports are functions of the control registers, and the codes tell these apart. -/
theorem controlRegistersShowOnPorts : Obligations.ControlRegistersShowOnPorts := by
  unfold Obligations.ControlRegistersShowOnPorts
  refine ⟨fun s => ?codes, fun s t => ⟨code_inj, haltCauseCode_inj⟩, ?dataHidden⟩
  case codes =>
    have hst {d : DecState} (h : s.st = d) : s.stPort = d.code := congrArg DecState.code h
    have hcause {c : HaltCause} (h : s.haltCause = c) : s.haltCausePort = haltCauseCode c :=
      congrArg haltCauseCode h
    exact ⟨hst, hst, hst, hst, hst, rfl, hcause, hcause, hcause, hcause, haltedPort_iff s, rfl⟩
  case dataHidden =>
    intro s appId csum cnt fcsRx dlen pbuf
    exact ⟨rfl, rfl, rfl, rfl, rfl, rfl, rfl, rfl, rfl, rfl, rfl⟩

end Sys2Proof.Machine
end

section
/-! PROOFS. 20_memory.md R50, R51, R53, R62: the payload buffer. Reading and writing it are the lemmas of
Laws/Memory; here stands who writes it: of the rules for an event only the payload byte's
(`EventStep.pbuf_cases`), and of the acts only the decoder's turn (`step_pbuf`). -/

namespace Sys2Proof.Machine

theorem memWrite_of_not_lt {m : Memory} {a : Nat} (v : Byte) (ha : ¬ a < payloadCap) :
    memWrite m a v = .error .pbufRange := if_neg ha

/-- Settles O49: the range check, then read after write and the canonical form of a store. -/
theorem bufferReadsBackWhatWasWritten : Obligations.BufferReadsBackWhatWasWritten := by
  unfold Obligations.BufferReadsBackWhatWasWritten
  intro m a v
  refine ⟨fun hbeyond => ?outside, fun hwithin => ?inside⟩
  case outside =>
    have ha : ¬ a < payloadCap := by rw [payloadCap_eq]; omega
    exact ⟨memWrite_of_not_lt v ha, memRead_of_not_lt ha⟩
  case inside =>
    have ha : a < payloadCap := by rw [payloadCap_eq]; omega
    exact ⟨⟨_, memRead_of_lt ha⟩, memStore m a v, memWrite_of_lt v ha,
      fun hm => memStore_wf v hm ha, fun k => memRead_memStore k v ha⟩

/-! ### Who writes the buffer -/

/-- The core's only store, in the decoder's rules: a payload byte, at index `cnt` (20_memory.md R51). -/
theorem EventStep.pbuf_cases {e : Event} {s t : State} (h : EventStep e s t) :
    t.pbuf = s.pbuf ∨
      ∃ b, e = .byte b ∧ s.st = .readPayload ∧ payloadPosition s = true ∧
        t.pbuf = memStore s.pbuf s.cnt.toNat b := by
  cases h with
  | skip | start | appid | lenhi | empty | payload | fcs | filtered => exact .inl rfl
  | retry | eos | fatal | stop | ignored => exact .inl rfl
  | oversize | badEtx | mismatch => exact .inl (raiseError_pbuf _ _)
  | @dispatch _ f => exact .inl (encodeFrame_pbuf f _)
  | data hs hp => exact .inr ⟨_, rfl, hs, hp, rfl⟩
  | lastData hs hp => exact .inr ⟨_, rfl, hs, hp, rfl⟩

/-- A step leaves the buffer, or it was the decoder's turn on a payload byte; reset clears nothing
(20_memory.md R53). -/
theorem step_pbuf {s t : State} (h : step s = .next t) :
    t.pbuf = s.pbuf ∨
      ∃ b, s.nextAct = .rx ∧ portEvent s.sample = .byte b ∧ s.st = .readPayload ∧
        payloadPosition s = true ∧ t.pbuf = memStore s.pbuf s.cnt.toNat b := by
  rcases step_cases h with ⟨-, -, rfl⟩ | ⟨hact, -, e, he, hev⟩ | ⟨-, rfl⟩ | ⟨-, rfl⟩ |
    ⟨enable, -, rfl⟩ | ⟨l, -, rfl⟩ | ⟨-, rfl⟩ | ⟨c, -, hcall⟩
  · exact .inl rfl
  · rcases hev.pbuf_cases with hsame | ⟨b, rfl, hst, hpos, hstore⟩
    · exact .inl (by simpa using hsame)
    · exact .inr ⟨b, hact, he, by simpa using hst, by simpa [payloadPosition] using hpos,
        by simpa using hstore⟩
  · exact .inl (takePkt_pbuf _)
  · exact .inl (takeCtrl_pbuf _)
  · exact .inl (requestControl_pbuf enable _)
  · exact .inl rfl
  · exact .inl rfl
  · rcases hcall with ⟨-, rfl⟩ | ⟨-, ⟨p2, -, rfl⟩ | ⟨p2, -, rfl⟩ | ⟨f, -, -, rfl⟩⟩
    · exact .inl rfl
    · exact .inl rfl
    · exact .inl rfl
    · exact .inl (encodeFrame_pbuf f _)

/-- A byte event carries the data of the beat presented (10_state.md R34). -/
theorem portEvent_byte {p : EventPort} {b : Byte} (h : portEvent p = .byte b) : b = p.rx.data := by
  unfold portEvent at h
  split_ifs at h
  exact (Event.byte.inj h).symm

/-- Settles O48: a store at `cnt` is the only change, and it changes how no other index reads. -/
theorem onlyPayloadBytesWriteTheBuffer : Obligations.OnlyPayloadBytesWriteTheBuffer := by
  unfold Obligations.OnlyPayloadBytesWriteTheBuffer
  intro s t h a hchanged
  rcases step_pbuf h with hsame | ⟨b, hact, hbyte, hst, hpos, hstore⟩
  · exact absurd (by rw [hsame]) hchanged
  · have hcnt : s.cnt.toNat < payloadCap := by
      obtain ⟨hlt, hle⟩ := (payloadPosition_iff s).1 hpos
      rw [payloadCap_eq]
      omega
    have hread := memRead_memStore (m := s.pbuf) a b hcnt
    rw [← hstore] at hread
    have ha : a = s.cnt.toNat := by
      by_contra hne
      exact hchanged (by rw [hread, if_neg hne])
    rw [if_pos ha] at hread
    obtain rfl : b = (s.source.headD .idle).data := portEvent_byte hbyte
    exact ⟨hact, hst, ha, hbyte, hread⟩

end Sys2Proof.Machine
end

section
/-! PROOFS. 20_memory.md R63, 10_state.md R34, R35: the packet stream. `Offers p s t` says that from `s` to
`t` the packet `p`, or none, was emitted and queued for the sink, and that the sink took nothing. Every
step but a taking and a reset is one; that the stream stays in order and that at most one packet is
outstanding are read off it. -/

namespace Sys2Proof.Machine

/-! ### Emitting and offering a packet -/

/-- From `s` to `t` the packet `p`, or none, was emitted and its beats joined the serialiser. -/
structure Offers (p : Option (List Byte)) (s t : State) : Prop where
  packets : packetsOf t.out = packetsOf s.out ++ p.toList
  pktTx : t.pktTx = s.pktTx ++ p.toList.flatMap beats
  pktLog : t.pktLog = s.pktLog

/-- An operation that leaves the outputs, the serialiser and the sink's record alone offers nothing. -/
theorem Offers.nothing {s t : State} (hout : t.out = s.out) (htx : t.pktTx = s.pktTx)
    (hlog : t.pktLog = s.pktLog) : Offers none s t :=
  ⟨by simp [hout], by simp [htx], hlog⟩

/-- An outcome is no packet: emitting one offers nothing. -/
theorem Offers.outcome {s t : State} {o : CycleOutcome} (hout : t.out = s.out ++ [.outcome o])
    (htx : t.pktTx = s.pktTx) (hlog : t.pktLog = s.pktLog) : Offers none s t :=
  ⟨by simp [hout, packetsOf], by simp [htx], hlog⟩

/-- Operations that offer nothing may come first. -/
theorem Offers.after {p : Option (List Byte)} {s t u : State} (h : Offers p t u)
    (h0 : Offers none s t) : Offers p s u where
  packets := by rw [h.packets, h0.packets]; simp
  pktTx := by rw [h.pktTx, h0.pktTx]; simp
  pktLog := h.pktLog.trans h0.pktLog

/-- What is emitted is what is offered, so the stream stays in order. -/
theorem Offers.streamInOrder {p : Option (List Byte)} {s t : State} (h : Offers p s t)
    (hs : s.streamInOrder) : t.streamInOrder := by
  unfold State.streamInOrder at hs ⊢
  rw [h.packets, h.pktTx, h.pktLog, List.flatMap_append, ← hs, List.append_assoc]

/-! ### What an operation offers -/

theorem raiseError_offers (e : FrameError) (s : State) : Offers none s (raiseError e s) :=
  .outcome (raiseError_out e s) (raiseError_pktTx e s) (raiseError_pktLog e s)

/-- An encode offers its packet, or reports `EncodeTruncated` (43_gsmtap_encoder.md R180). -/
theorem encodeFrame_offers (f : Frame) (s : State) :
    Offers (encodePacket s.cfg f.payload) s (encodeFrame f s) := by
  rcases encodeFrame_cases f s with ⟨hp, h⟩ | ⟨p, hp, h⟩
  · rw [hp, h]
    exact .outcome rfl rfl rfl
  · rw [hp, h]
    exact ⟨by simp [packetsOf], by simp, rfl⟩

/-- The sink's taking moves a beat within the stream. -/
theorem takePkt_streamInOrder {s : State} (hs : s.streamInOrder) : s.takePkt.streamInOrder := by
  unfold State.streamInOrder at hs ⊢
  rw [takePkt_stream, takePkt_out, hs]

/-- A handled event offers at most one packet, the one of a dispatch. -/
theorem EventStep.offers {e : Event} {s t : State} (h : EventStep e s t) :
    ∃ p, Offers p s t := by
  cases h with
  | skip | start | appid | lenhi | empty | payload | data | lastData | fcs | retry | ignored =>
    exact ⟨none, .nothing rfl rfl rfl⟩
  | oversize | badEtx | mismatch => exact ⟨none, (raiseError_offers _ _).after (.nothing rfl rfl rfl)⟩
  | filtered | eos | fatal | stop => exact ⟨none, .outcome rfl rfl rfl⟩
  | @dispatch _ f =>
    have hok : Offers none s (({ s with idx := 0 } : State).countOk.emit (.outcome (.ok f))) :=
      .outcome rfl rfl rfl
    obtain ⟨hpackets, htx, hlog⟩ := (encodeFrame_offers f _).after hok
    exact ⟨_, hpackets, htx, hlog⟩

/-- The packet side of a step: nothing is offered, or the serialiser was idle and at most one packet is
(10_state.md R35); or the step is a taking or a reset. -/
theorem step_offers {s t : State} (h : step s = .next t) :
    Offers none s t ∨ (s.pktTx = [] ∧ ∃ p, Offers p s t) ∨
      (s.nextAct = .pkt ∧ t = s.popAgenda.takePkt) ∨
      (s.nextAct = .rst ∧ t = s.popAgenda.applyReset) := by
  rcases step_cases h with ⟨-, -, rfl⟩ | ⟨-, hidle, e, -, hev⟩ | hpkt | ⟨-, rfl⟩ |
    ⟨enable, -, rfl⟩ | ⟨l, -, rfl⟩ | hrst | ⟨c, -, hcall⟩
  · exact .inl (.nothing rfl rfl rfl)
  · obtain ⟨p, hp⟩ := hev.offers
    exact .inr (.inl ⟨hidle, p, hp.after (.nothing (by simp) (by simp) (by simp))⟩)
  · exact .inr (.inr (.inl hpkt))
  · exact .inl (.nothing (by simp) (by simp) (by simp))
  · exact .inl (.nothing (by simp) (by simp) (by simp))
  · exact .inl (.nothing rfl rfl rfl)
  · exact .inr (.inr (.inr hrst))
  · rcases hcall with ⟨-, rfl⟩ | ⟨hidle, ⟨p2, -, rfl⟩ | ⟨p2, -, rfl⟩ | ⟨f, -, -, rfl⟩⟩
    · exact .inl (.nothing rfl rfl rfl)
    · exact .inl (.nothing rfl rfl rfl)
    · exact .inl (.nothing rfl rfl rfl)
    · exact .inr (.inl ⟨hidle, _, (encodeFrame_offers f _).after (.nothing rfl rfl rfl)⟩)

/-! ### The statements -/

/-- Settles O44: a taking moves a beat from the serialiser to the record, every other step but reset
queues what it emits. -/
theorem packetStreamIsEmittedPacketsInOrder : Obligations.PacketStreamIsEmittedPacketsInOrder := by
  unfold Obligations.PacketStreamIsEmittedPacketsInOrder
  intro s t hs hrst hstep
  rcases step_offers hstep with hnone | ⟨-, p, hp⟩ | ⟨-, rfl⟩ | ⟨hact, -⟩
  · exact hnone.streamInOrder hs
  · exact hp.streamInOrder hs
  · exact takePkt_streamInOrder (s := s.popAgenda) hs
  · exact absurd hact hrst

/-- Settles O45: a packet is offered by an idle serialiser only, which then holds its beats. -/
theorem atMostOnePacketOutstanding : Obligations.AtMostOnePacketOutstanding := by
  unfold Obligations.AtMostOnePacketOutstanding
  intro s t hstep
  rcases step_offers hstep with hnone | ⟨hidle, p, hp⟩ | ⟨-, rfl⟩ | ⟨-, rfl⟩
  · exact .inl (by simpa using hnone.packets)
  · cases p with
    | none => exact .inl (by simpa using hp.packets)
    | some p => exact .inr ⟨p, hp.packets, hidle, by simpa [hidle] using hp.pktTx⟩
  · exact .inl (congrArg packetsOf (takePkt_out s.popAgenda))
  · exact .inl rfl

end Sys2Proof.Machine
end

section
/-! PROOFS. 30_encoding.md R77, R90, 41_frame_decoder.md R112: decode and encode. `decode (encode i) = .ok i`
is one lemma per constructor (Laws/PerInstr). That one operation handles an event is read off
`selects st idx i`, the position column of the table of R112: exec turns an operation away exactly where its
row does not select it, and the row that selects at a position is the one the event decodes to. -/

namespace Sys2Proof.Machine

open Sys2Proof.Laws

/-! ### The column of positions of the table -/

/-- The positions at which the row of an operation of the first group applies (30_encoding.md R90,
41_frame_decoder.md R112). -/
def selects (st : DecState) (idx : BitVec 2) : Instr → Prop
  | .asSkip b => st = .awaitStart ∧ b ≠ stx
  | .asStx => st = .awaitStart
  | .rhAppid _ => st = .readHeader ∧ idx = 0
  | .rhLenhi _ => st = .readHeader ∧ idx = 1
  | .rhLenlo _ => st = .readHeader ∧ idx = 2
  | .rpData _ => st = .readPayload
  | .rtFcs _ => st = .readTrailer ∧ idx = 0
  | .rtBadetx b => st = .readTrailer ∧ idx = 1 ∧ b ≠ etx
  | .rtEtx => st = .readTrailer ∧ idx = 1
  | .evRetry | .evEos | .evFatal | .evStop => st ≠ .halted
  | .haltIgn _ => st = .halted
  | _ => False

theorem wf_of_selects {st : DecState} {idx : BitVec 2} {i : Instr} (h : selects st idx i) :
    i.wf = true := by
  cases i with
  | asSkip b => simpa [Instr.wf] using h.2
  | rtBadetx b => simpa [Instr.wf] using h.2.2
  | gtEnc f => exact h.elim
  | _ => rfl

/-! ### What exec turns away -/

/-- The guard answers `notSelected` by itself; what it guards answers something else. -/
theorem whenSelected_eq_notSelected {c : Bool} {k : Answer} (hk : k ≠ .refused .notSelected) :
    whenSelected c k = .refused .notSelected ↔ ¬ c = true := by
  cases c <;> simp [whenSelected, hk]

theorem execRpData_eq_notSelected {b : Byte} {s : State} :
    execRpData b s = .refused .notSelected ↔ ¬ s.st = .readPayload := by
  unfold execRpData
  rw [whenSelected_eq_notSelected, decide_eq_true_eq]
  split
  · split <;> simp
  · simp

theorem execRtEtx_eq_notSelected {s : State} :
    execRtEtx s = .refused .notSelected ↔ ¬ (s.st = .readTrailer ∧ s.idx = 1) := by
  unfold execRtEtx
  rw [whenSelected_eq_notSelected, Bool.and_eq_true, decide_eq_true_eq, decide_eq_true_eq]
  split
  · simp
  · split
    · simp
    · split <;> simp

/-- An operation of the first group is turned away exactly where its row does not select it. -/
theorem exec_eq_notSelected {e : Event} {i : Instr} (h : eventOf i = some e) (s : State) :
    exec i s = .refused .notSelected ↔ ¬ selects s.st s.idx i := by
  cases i with
  | rpData b => exact execRpData_eq_notSelected
  | rtEtx => exact execRtEtx_eq_notSelected
  | asSkip b => simp [exec, execAsSkip, whenSelected_eq_notSelected, selects, isStx]
  | asStx => simp [exec, execAsStx, whenSelected_eq_notSelected, selects]
  | rhAppid b => simp [exec, execRhAppid, whenSelected_eq_notSelected, selects]
  | rhLenhi b => simp [exec, execRhLenhi, whenSelected_eq_notSelected, selects]
  | rhLenlo b => simp [exec, execRhLenlo, whenSelected_eq_notSelected, selects]
  | rtFcs b => simp [exec, execRtFcs, whenSelected_eq_notSelected, selects]
  | rtBadetx b => simp [exec, execRtBadetx, whenSelected_eq_notSelected, selects, etxOk, and_assoc]
  | evRetry => simp [exec, execEvRetry, whenSelected_eq_notSelected, selects]
  | evEos => simp [exec, execEvEos, whenSelected_eq_notSelected, selects]
  | evFatal => simp [exec, execEvFatal, whenSelected_eq_notSelected, selects]
  | evStop => simp [exec, execEvStop, whenSelected_eq_notSelected, selects]
  | haltIgn e => simp [exec, execHaltIgn, whenSelected_eq_notSelected, selects]
  | _ => simp [eventOf] at h

/-! ### The row that selects is the one decoded -/

theorem decode_positionWord (s : State) (e : Event) :
    decode (s.positionWord (eventPort e)) = decodeEvent s.st s.idx e := by
  simp [State.positionWord, decode]

/-- At a position with a row, an event decodes to any operation that handles it there. -/
theorem decodeEvent_of_selects {st : DecState} {idx : BitVec 2} {e : Event} {i : Instr}
    (hrow : hasRow st idx = true) (he : eventOf i = some e) (hsel : selects st idx i) :
    decodeEvent st idx e = .ok i := by
  have hpos := positionReject_eq_none.2 hrow
  cases i with
  | asSkip | asStx | rhAppid | rhLenhi | rhLenlo | rpData | rtFcs | rtBadetx | rtEtx
  | evRetry | evEos | evFatal | evStop | haltIgn =>
    cases he
    simp only [selects] at hsel
    simp only [decodeEvent, hpos]
    simp [decodeByte, hsel]
  | _ => exact hsel.elim

theorem exists_selects_byte {st : DecState} {idx : BitVec 2} (hrow : hasRow st idx = true)
    (b : Byte) : ∃ i, eventOf i = some (.byte b) ∧ selects st idx i := by
  cases st with
  | awaitStart =>
    by_cases hb : b = stx
    · exact ⟨.asStx, by rw [hb]; rfl, rfl⟩
    · exact ⟨.asSkip b, rfl, rfl, hb⟩
  | readHeader =>
    have index_cases : ∀ i : BitVec 2, hasRow .readHeader i = true → i = 0 ∨ i = 1 ∨ i = 2 := by
      decide
    rcases index_cases idx hrow with h0 | h1 | h2
    · exact ⟨.rhAppid b, rfl, rfl, h0⟩
    · exact ⟨.rhLenhi b, rfl, rfl, h1⟩
    · exact ⟨.rhLenlo b, rfl, rfl, h2⟩
  | readPayload => exact ⟨.rpData b, rfl, rfl⟩
  | readTrailer =>
    have hidx : idx = 0 ∨ idx = 1 := by simpa [hasRow] using hrow
    rcases hidx with h0 | h1
    · exact ⟨.rtFcs b, rfl, rfl, h0⟩
    · by_cases hb : b = etx
      · exact ⟨.rtEtx, by rw [hb]; rfl, rfl, h1⟩
      · exact ⟨.rtBadetx b, rfl, rfl, h1, hb⟩
  | halted => exact ⟨.haltIgn (.byte b), rfl, rfl⟩

/-- The table is complete: at a position with a row every event has an operation that is selected. -/
theorem exists_selects {st : DecState} {idx : BitVec 2} (hrow : hasRow st idx = true) (e : Event) :
    ∃ i, eventOf i = some e ∧ selects st idx i := by
  by_cases hst : st = .halted
  · exact ⟨.haltIgn e, rfl, hst⟩
  · cases e with
    | byte b => exact exists_selects_byte hrow b
    | retry => exact ⟨.evRetry, rfl, hst⟩
    | endOfStream => exact ⟨.evEos, rfl, hst⟩
    | fatal => exact ⟨.evFatal, rfl, hst⟩
    | stop => exact ⟨.evStop, rfl, hst⟩

/-! ### The statements -/

/-- Settles O31: the round trip of each constructor. -/
theorem decodeOfEncodeIsTheInstruction : Obligations.DecodeOfEncodeIsTheInstruction := by
  unfold Obligations.DecodeOfEncodeIsTheInstruction
  intro i
  cases i with
  | asSkip b => exact RoundTrip.asSkip b
  | asStx => exact RoundTrip.asStx
  | rhAppid b => exact RoundTrip.rhAppid b
  | rhLenhi b => exact RoundTrip.rhLenhi b
  | rhLenlo b => exact RoundTrip.rhLenlo b
  | rpData b => exact RoundTrip.rpData b
  | rtFcs b => exact RoundTrip.rtFcs b
  | rtBadetx b => exact RoundTrip.rtBadetx b
  | rtEtx => exact RoundTrip.rtEtx
  | evRetry => exact RoundTrip.evRetry
  | evEos => exact RoundTrip.evEos
  | evFatal => exact RoundTrip.evFatal
  | evStop => exact RoundTrip.evStop
  | haltIgn e => exact RoundTrip.haltIgn e
  | map0 ign ul => exact RoundTrip.map0 ign ul
  | map1 ign ul => exact RoundTrip.map1 ign ul
  | map2 ign ul => exact RoundTrip.map2 ign ul
  | map3 ign ul => exact RoundTrip.map3 ign ul
  | map4 ign ul => exact RoundTrip.map4 ign ul
  | map5 ign ul => exact RoundTrip.map5 ign ul
  | map6 ign ul => exact RoundTrip.map6 ign ul
  | map7 ign ul => exact RoundTrip.map7 ign ul
  | map8 ign ul => exact RoundTrip.map8 ign ul
  | map9 ign ul => exact RoundTrip.map9 ign ul
  | map10 ign ul => exact RoundTrip.map10 ign ul
  | map11 ign ul => exact RoundTrip.map11 ign ul
  | map12 ign ul => exact RoundTrip.map12 ign ul
  | map13 ign ul => exact RoundTrip.map13 ign ul
  | map14 ign ul => exact RoundTrip.map14 ign ul
  | map15 ign ul => exact RoundTrip.map15 ign ul
  | dirDl hi => exact RoundTrip.dirDl hi
  | dirUl hi => exact RoundTrip.dirUl hi
  | gtEnc f => exact RoundTrip.gtEnc f
  | crEn => exact RoundTrip.crEn
  | crDis => exact RoundTrip.crDis

/-- Settles O32: the row that selects at the position is the one decoded, so a second operation that exec
does not turn away would be decoded as well. -/
theorem exactlyOneOperationHandlesAnEvent : Obligations.ExactlyOneOperationHandlesAnEvent := by
  unfold Obligations.ExactlyOneOperationHandlesAnEvent
  intro s e hrow
  obtain ⟨i, hevent, hsel⟩ := exists_selects hrow e
  have hdecode := decodeEvent_of_selects hrow hevent hsel
  refine ⟨i, (decode_positionWord s e).trans hdecode, wf_of_selects hsel, hevent,
    fun hrefused => (exec_eq_notSelected hevent s).1 hrefused hsel, fun j hj hne => ?second⟩
  case second =>
    refine (exec_eq_notSelected hj s).2 fun hjsel => hne ?_
    exact Except.ok.inj ((decodeEvent_of_selects hrow hj hjsel).symm.trans hdecode)

/-- Settles O33: each word, decoded. -/
theorem wordsWrittenFromTheTablesDecode : Obligations.WordsWrittenFromTheTablesDecode := by
  unfold Obligations.WordsWrittenFromTheTablesDecode
  exact ⟨rfl, rfl, rfl, rfl, rfl, rfl, rfl, rfl⟩

end Sys2Proof.Machine
end

section
/-! PROOFS. 30_encoding.md R80, R81, 43_gsmtap_encoder.md R183: the header under any layout without overlap.
A field's byte is `buildHeader_field`; every other offset holds zero because each field that lies there is
zero, whether it is one of the layout's zero fields or none. -/

namespace Sys2Proof.Machine

/-! ### The two bytes of the `arfcn` field -/

theorem hiByte_eq (v : BitVec 16) : hiByte v = BitVec.ofNat 8 (v.toNat / 256) := by
  apply BitVec.eq_of_toNat_eq
  simp [hiByte, Nat.shiftRight_eq_div_pow]

theorem loByte_eq (v : BitVec 16) : loByte v = BitVec.ofNat 8 (v.toNat % 256) := by
  apply BitVec.eq_of_toNat_eq
  simp [loByte]

theorem hiByte_arfcnOf (p : Params) (ul : Bool) :
    hiByte (arfcnOf p ul) = if ul then BitVec.ofNat 8 (p.arfcnUplink.toNat / 256) else 0 := by
  cases ul <;> simp [arfcnOf, hiByte_eq]

theorem loByte_arfcnOf (p : Params) (ul : Bool) :
    loByte (arfcnOf p ul) = if ul then BitVec.ofNat 8 (p.arfcnUplink.toNat % 256) else 0 := by
  cases ul <;> simp [arfcnOf, loByte_eq]

/-! ### Zero elsewhere -/

/-- An offset at which no field has another byte than zero holds zero: the header starts as zeros. -/
theorem buildHeader_zero {p : Params} {m : MapResult} {ul : Bool} {o : Nat} (hok : p.layoutOk)
    (ho : o < 4 * p.hdrWords.toNat) (hzero : ∀ v, (o, v) ∈ headerFields p m ul → v = 0) :
    (buildHeader p m ul)[o]? = some 0 := by
  by_cases hfield : o ∈ (headerFields p m ul).map (·.1)
  · obtain ⟨⟨o', v⟩, hmem, rfl⟩ := List.mem_map.1 hfield
    rw [buildHeader_field hok hmem, hzero v hmem]
  · rw [buildHeader, placeFields_getElem?_of_notMem _ hfield]
    simp [ho]

/-- Only version, length, type, `arfcn` and `sub_type` put a byte other than zero (30_encoding.md R80). -/
theorem headerFields_zero {p : Params} {m : MapResult} {ul : Bool} {o : Nat} {v : Byte}
    (ho : o ∉ [p.layout.version, p.layout.hdrLen, p.layout.frameType, p.layout.arfcn,
      p.layout.arfcn + 1, p.layout.subType])
    (hmem : (o, v) ∈ headerFields p m ul) : v = 0 := by
  simp only [headerFields, List.mem_cons, List.not_mem_nil, or_false, not_or, Prod.mk.injEq]
    at ho hmem
  grind

/-- Settles O15: each field's byte at its offset, and zero where only zero fields lie. -/
theorem headerHoldsEachFieldAndZeroElsewhere :
    Obligations.HeaderHoldsEachFieldAndZeroElsewhere := by
  unfold Obligations.HeaderHoldsEachFieldAndZeroElsewhere
  intro p m ul hok
  have hfield {o : Nat} {v : Byte} (hmem : (o, v) ∈ headerFields p m ul) :
      (buildHeader p m ul)[o]? = some v := buildHeader_field hok hmem
  refine ⟨buildHeader_length p m ul, hfield ?_, hfield ?_, hfield ?_, ?arfcnHigh, ?arfcnLow,
    hfield ?_, fun o ho hother => buildHeader_zero hok ho fun v => headerFields_zero hother⟩
  case arfcnHigh =>
    rw [← hiByte_arfcnOf]
    exact hfield (by simp [headerFields])
  case arfcnLow =>
    rw [← loByte_arfcnOf]
    exact hfield (by simp [headerFields])
  all_goals simp [headerFields, frameTypeOf]

end Sys2Proof.Machine
end

section
/-! PROOFS. 30_encoding.md R92, 41_frame_decoder.md R124, R131, 43_gsmtap_encoder.md R180, R184: a trace frame
end to end. The frame up to its trailer is `header_payload_run`; its own checksum and terminator dispatch
the record, and the payload of `TRACE` encodes to the header of its code and direction and its content. -/

namespace Sys2Proof.Machine

/-! ### Dispatch -/

/-- What a dispatch emits, by the answer of the encoder (41_frame_decoder.md R124). -/
theorem dispatchFrame_out (f : Frame) (s : State) :
    (dispatchFrame f s).out = s.out ++ dispatchOutputs s.cfg f := by
  have hcfg : (s.countOk.emit (.outcome (.ok f))).cfg = s.cfg := rfl
  rcases encodeFrame_cases f (s.countOk.emit (.outcome (.ok f))) with ⟨hp, henc⟩ | ⟨p, hp, henc⟩
  · rw [hcfg] at hp
    simp [dispatchFrame, dispatchOutputs, henc, hp]
  · rw [hcfg] at hp
    simp [dispatchFrame, dispatchOutputs, henc, hp]

theorem readFrame_of_bytes {s : State} {p : List Byte}
    (h : memReadBytes s.pbuf 0 s.dlen.toNat = .ok p) : readFrame s = .ok ⟨s.appId, p, s.fcsRx⟩ := by
  simp [readFrame, h]

/-- A trailer with the running checksum and the end marker dispatches the payload of a trace frame. -/
theorem trailer_dispatch_run {s : State} {p : List Byte} (hs : s.st = .readTrailer) (hx : s.idx = 0)
    (happ : s.appId = traceAppId) (hm : memReadBytes s.pbuf 0 s.dlen.toNat = .ok p) :
    ∃ t, runEvents (byteEvents [s.csum, etx]) s = .next t ∧ t.st = .awaitStart ∧
      t.out = s.out ++ dispatchOutputs s.cfg ⟨traceAppId, p, s.csum⟩ := by
  let s1 : State := { s with fcsRx := s.csum, idx := 1 }
  have hread : readFrame s1 = .ok ⟨traceAppId, p, s.csum⟩ := happ ▸ readFrame_of_bytes (s := s1) hm
  have e1 : EventStep (.byte s.csum) s s1 := .fcs hs hx
  have e2 : EventStep (.byte etx) s1 (dispatchFrame ⟨traceAppId, p, s.csum⟩ { s1 with idx := 0 }) :=
    .dispatch hs rfl (decide_eq_true rfl) (decide_eq_true happ) hread
  refine ⟨dispatchFrame _ { s1 with idx := 0 }, ?_, rfl, dispatchFrame_out _ _⟩
  show runEvents [.byte s.csum, .byte etx] s = _
  rw [runEvents_cons e1, runEvents_cons e2]
  rfl

/-- A well-formed trace frame is dispatched, whatever its payload (41_frame_decoder.md R131). -/
theorem frameBytes_dispatch_run {s : State} {p : List Byte} (hs : s.st = .awaitStart)
    (hp : p.length ≤ 255) :
    ∃ t fcs, runEvents (byteEvents (frameBytes traceAppId p)) s = .next t ∧ t.st = .awaitStart ∧
      t.out = s.out ++ dispatchOutputs s.cfg ⟨traceAppId, p, fcs⟩ := by
  have hhi : lenHiOf p.length = 0 := by
    simp [lenHiOf, Nat.div_eq_of_lt (show p.length < 256 by omega)]
  have hlo : lenLoOf p.length = BitVec.ofNat 8 p.length := by
    rw [lenLoOf, Nat.mod_eq_of_lt (by omega)]
  obtain ⟨u, hrun, hst, hidx, hcsum, hbytes, happ, hcfg, -, -, -, hout, -⟩ :=
    header_payload_run s traceAppId 0 p hs hp rfl
  obtain ⟨t, htrailer, htst, htout⟩ := trailer_dispatch_run hst hidx happ hbytes
  refine ⟨t, u.csum, ?_, htst, by rw [htout, hout, hcfg]⟩
  rw [← htrailer, ← runEvents_append hrun, hcsum]
  simp [frameBytes, rawFrame, hhi, hlo, byteEvents]

/-! ### The payload of a trace frame -/

/-- The payload of `TRACE` (30_encoding.md R92): five bytes, then the content. -/
def tracePayload (code : BitVec 4) (ul : BitVec 1) (content : List Byte) : List Byte :=
  [0, 0, fmtByteOf 0 code ul, BitVec.ofNat 8 (content.length / 256 % 256),
    BitVec.ofNat 8 (content.length % 256)] ++ content

theorem traceFrame_eq (code : BitVec 4) (ul : BitVec 1) (content : List Byte) :
    traceFrame code ul content = frameBytes traceAppId (tracePayload code ul content) := rfl

theorem tracePayload_length (code : BitVec 4) (ul : BitVec 1) (content : List Byte) :
    (tracePayload code ul content).length = 5 + content.length := by
  rw [tracePayload, List.length_append]
  rfl

theorem contentLength_tracePayload (code : BitVec 4) (ul : BitVec 1) {content : List Byte}
    (h : content.length < 65536) : contentLength (tracePayload code ul content) = content.length := by
  show (BitVec.ofNat 8 (content.length / 256 % 256)).toNat * 256 +
    (BitVec.ofNat 8 (content.length % 256)).toNat = content.length
  simp only [BitVec.toNat_ofNat]
  omega

theorem traceContent_tracePayload (code : BitVec 4) (ul : BitVec 1) {content : List Byte}
    (h : content.length < 65536) : traceContent (tracePayload code ul content) = content := by
  rw [traceContent, contentLength_tracePayload code ul h]
  exact List.take_length

theorem payloadByte_tracePayload (code : BitVec 4) (ul : BitVec 1) (content : List Byte) :
    payloadByte (tracePayload code ul content) 2 = fmtByteOf 0 code ul := rfl

/-- The packet of a trace payload: the header of its code and direction, then its content. -/
theorem encodePacket_tracePayload (cfg : Params) (code : BitVec 4) (ul : BitVec 1)
    {content : List Byte} (h : content.length < 65536) :
    encodePacket cfg (tracePayload code ul content) =
      some (buildHeader cfg (mapCode cfg code) (decide (ul = 1)) ++ content) := by
  refine encodePacket_some.2 ⟨?_, ?_⟩
  · rw [contentLength_tracePayload code ul h, tracePayload_length]
  · rw [payloadByte_tracePayload, traceContent_tracePayload code ul h, isUplink,
      formatCode_fmtByteOf, uplinkBit_fmtByteOf]

/-- Settles O28: the frame is dispatched, and its payload encodes to header and content. -/
theorem traceContentLeavesUnchangedInOnePacket :
    Obligations.TraceContentLeavesUnchangedInOnePacket := by
  unfold Obligations.TraceContentLeavesUnchangedInOnePacket
  intro s code ul content hs hlen
  have hp : (tracePayload code ul content).length ≤ 255 := by
    rw [tracePayload_length]
    omega
  obtain ⟨t, fcs, hrun, hst, hout⟩ := frameBytes_dispatch_run hs hp
  refine ⟨t, ⟨traceAppId, tracePayload code ul content, fcs⟩, hrun, hst, ?_⟩
  rw [hout, dispatchOutputs, encodePacket_tracePayload s.cfg code ul (by omega)]

end Sys2Proof.Machine
end

section
/-! PROOFS. 40_checksum.md R100, R102, R104, R106: the checksum. The laws of `compute` come first. That every
step keeps the running checksum is then one lemma per operation that takes a byte of the frame; all other
operations leave what the checksum is about, or leave the frame. -/

namespace Sys2Proof.Machine

/-! ### The fold as a function of the bytes -/

@[simp] theorem compute_nil : compute [] = 0#8 := rfl

theorem compute_append (s t : List Byte) : compute (s ++ t) = compute s ^^^ compute t := by
  calc compute (s ++ t)
      = t.foldl fold (compute s) := List.foldl_append
    _ = compute s ^^^ compute t := foldl_fold t (compute s)

theorem fold_right_comm (a b c : Byte) : fold (fold a b) c = fold (fold a c) b := by
  simp only [fold, BitVec.xor_assoc, BitVec.xor_comm b c]

/-- The order of the bytes does not matter, because two folds can be exchanged (40_checksum.md R100). -/
theorem compute_perm {s t : List Byte} (h : s.Perm t) : compute s = compute t :=
  h.foldl_eq' (fun b _ c _ a => fold_right_comm a b c) 0

/-- Replacing a byte takes the old one out of the checksum and puts the new one in. -/
theorem compute_set {bs : List Byte} {i : Nat} (v : Byte) (hi : i < bs.length) :
    compute (bs.set i v) = compute bs ^^^ (bs.getD i 0 ^^^ v) := by
  induction bs generalizing i with
  | nil => exact absurd hi (Nat.not_lt_zero i)
  | cons b bs ih =>
    cases i with
    | zero =>
      rw [List.set_cons_zero, compute_cons, compute_cons, List.getD_cons_zero,
        BitVec.xor_comm b (compute bs), BitVec.xor_assoc, ← BitVec.xor_assoc b b v,
        BitVec.xor_self, BitVec.zero_xor, BitVec.xor_comm]
    | succ i =>
      rw [List.set_cons_succ, compute_cons, compute_cons, List.getD_cons_succ,
        ih (Nat.lt_of_succ_lt_succ hi), BitVec.xor_assoc]

/-- A byte changed by a mask changes the checksum by the mask (40_checksum.md R106). -/
theorem compute_set_xor {bs : List Byte} {i : Nat} (mask : Byte) (hi : i < bs.length) :
    compute (bs.set i (bs.getD i 0 ^^^ mask)) = compute bs ^^^ mask := by
  rw [compute_set _ hi, ← BitVec.xor_assoc (bs.getD i 0), BitVec.xor_self, BitVec.zero_xor]

/-- Settles O24: the laws of the exclusive-or fold. -/
theorem checksumIsOrderFreeXorFold : Obligations.ChecksumIsOrderFreeXorFold := by
  unfold Obligations.ChecksumIsOrderFreeXorFold
  have hone (b : Byte) : compute [b] = b := by rw [compute_cons, compute_nil, BitVec.xor_zero]
  have htwo (b : Byte) : compute [b, b] = 0#8 := by rw [compute_cons, hone, BitVec.xor_self]
  exact ⟨compute_nil, compute_snoc, compute_append, fun _ _ => compute_perm,
    fun b => ⟨hone b, htwo b⟩, by decide⟩

/-- Settles O25: each change enters the checksum as its mask, and the same mask twice cancels. -/
theorem checksumDetectsOneChangeMissesPairs :
    Obligations.ChecksumDetectsOneChangeMissesPairs := by
  unfold Obligations.ChecksumDetectsOneChangeMissesPairs
  intro bs i j mask hi change
  have hfirst : compute (change bs i) = compute bs ^^^ mask := compute_set_xor mask hi
  refine ⟨hfirst, fun hj _ => ?pair⟩
  case pair =>
    have hj' : j < (change bs i).length := by rwa [List.length_set]
    calc compute (change (change bs i) j)
        = compute (change bs i) ^^^ mask := compute_set_xor mask hj'
      _ = compute bs := by rw [hfirst, BitVec.xor_assoc, BitVec.xor_self, BitVec.xor_zero]

/-! ### The running checksum at each position -/

/-- `csum` is the checksum of the header and of the first `n` bytes of the buffer, for a `LenHi` byte that
agrees with `dlen`: what `csumTracks` says once the length is complete. -/
def csumCovers (s : State) (n : Nat) : Prop :=
  ∃ hi : Byte, ∃ p : List Byte, s.dlen = dlenWithLo (dlenFromHi hi) (dlenLo s.dlen) ∧
    memReadBytes s.pbuf 0 n = .ok p ∧ s.csum = compute ([s.appId, hi, dlenLo s.dlen] ++ p)

theorem csumTracks_awaitStart {s : State} (hs : s.st = .awaitStart) : csumTracks s := by
  simp [csumTracks, hs]

theorem csumTracks_halted {s : State} (hs : s.st = .halted) : csumTracks s := by
  simp [csumTracks, hs]

/-- Before its AppID a frame has no byte that counts. -/
theorem csumTracks_headerStart {s : State} (hs : s.st = .readHeader) (hx : s.idx = 0) :
    csumTracks s := by
  simp [csumTracks, hs, hx]

theorem csumTracks_lenHi {s : State} (hs : s.st = .readHeader) (hx : s.idx = 1) :
    csumTracks s ↔ s.csum = compute [s.appId] := by
  simp [csumTracks, hs, hx]

theorem csumTracks_lenLo {s : State} (hs : s.st = .readHeader) (hx : s.idx = 2) :
    csumTracks s ↔ ∃ hi : Byte, s.dlen = dlenFromHi hi ∧ s.csum = compute [s.appId, hi] := by
  simp [csumTracks, hs, hx]

theorem csumTracks_readPayload {s : State} (hs : s.st = .readPayload) :
    csumTracks s ↔ csumCovers s s.cnt.toNat := by
  simp only [csumTracks, hs, csumCovers]

theorem csumTracks_readTrailer {s : State} (hs : s.st = .readTrailer) :
    csumTracks s ↔ csumCovers s s.dlen.toNat := by
  simp only [csumTracks, hs, csumCovers]

/-- The running checksum is a matter of the position and the data path alone. -/
theorem csumTracks_of_same {s t : State} (hst : t.st = s.st) (hidx : t.idx = s.idx)
    (hdata : t.data = s.data) (h : csumTracks s) : csumTracks t := by
  simp only [State.data, DataPath.mk.injEq] at hdata
  obtain ⟨happ, hdlen, hcsum, hcnt, -, hbuf⟩ := hdata
  simpa only [csumTracks, hst, hidx, happ, hdlen, hcsum, hcnt, hbuf] using h

/-- An operation that ignores the data path and keeps the position keeps the running checksum. -/
theorem IgnoresData.csumTracks {f : State → State} {s : State} (hf : IgnoresData f)
    (hst : (f s).st = s.st) (hidx : (f s).idx = s.idx) (h : csumTracks s) :
    csumTracks (f s) :=
  csumTracks_of_same hst hidx (hf.data s) h

/-! ### The bytes of a frame -/

/-- The low byte of a completed length is the `LenLo` byte (41_frame_decoder.md R117). -/
theorem dlenLo_dlenWithLo (d : BitVec 13) (b : Byte) : dlenLo (dlenWithLo d b) = b :=
  BitVec.extractLsb'_append_eq_right

/-- After `LenLo` the checksum covers the header, and no payload byte has been taken. -/
theorem afterLenLo_csumCovers {s : State} (b : Byte) (hs : s.st = .readHeader) (hx : s.idx = 2)
    (h : csumTracks s) : csumCovers (afterLenLo s b) 0 := by
  obtain ⟨hi, hdlen, hcsum⟩ := (csumTracks_lenLo hs hx).1 h
  have hlo : dlenLo (afterLenLo s b).dlen = b := dlenLo_dlenWithLo s.dlen b
  refine ⟨hi, [], ?_, rfl, ?_⟩
  · rw [hlo, ← hdlen]
    rfl
  · calc fold s.csum b
        = compute ([s.appId, hi] ++ [b]) := by rw [compute_snoc, hcsum]
      _ = compute ([s.appId, hi, dlenLo (afterLenLo s b).dlen] ++ []) := by rw [hlo]; rfl

/-- A payload byte is folded and stored: the checksum covers one byte more (41_frame_decoder.md R119). -/
theorem afterData_csumCovers {s : State} (b : Byte) (hs : s.st = .readPayload)
    (hp : payloadPosition s = true) (h : csumTracks s) :
    csumCovers (afterData s b) (s.cnt.toNat + 1) := by
  obtain ⟨hi, p, hdlen, hread, hcsum⟩ := (csumTracks_readPayload hs).1 h
  have hcnt : s.cnt.toNat < payloadCap := by
    obtain ⟨hlt, hle⟩ := (payloadPosition_iff s).1 hp
    rw [payloadCap_eq]
    omega
  refine ⟨hi, p ++ [b], hdlen, memReadBytes_snoc b hcnt hread, ?_⟩
  calc fold s.csum b
      = compute (([s.appId, hi, dlenLo s.dlen] ++ p) ++ [b]) := by rw [compute_snoc, hcsum]
    _ = compute ([s.appId, hi, dlenLo s.dlen] ++ (p ++ [b])) := by rw [List.append_assoc]

/-- Every rule for an event keeps the running checksum (40_checksum.md R102). -/
theorem EventStep.keeps_csumTracks {e : Event} {s t : State} (h : EventStep e s t)
    (htracks : csumTracks s) : csumTracks t := by
  cases h with
  | skip | retry | ignored => exact htracks
  | start => exact csumTracks_headerStart rfl rfl
  | @appid _ b hs => exact Iff.mpr (csumTracks_lenHi hs rfl) rfl
  | @lenhi _ b hs hx =>
    have hcsum := (csumTracks_lenHi hs hx).1 htracks
    refine Iff.mpr (csumTracks_lenLo hs rfl) ⟨b, rfl, ?_⟩
    show fold s.csum b = compute ([s.appId] ++ [b])
    rw [compute_snoc, hcsum]
  | @empty _ b hs hx ho he =>
    have hzero : ((afterLenLo s b).goto .readTrailer).dlen.toNat = 0 := (emptyLength_iff _).1 he
    rw [csumTracks_readTrailer rfl, hzero]
    exact afterLenLo_csumCovers b hs hx htracks
  | @payload _ b hs hx =>
    exact (csumTracks_readPayload rfl).2 (afterLenLo_csumCovers b hs hx htracks)
  | @data _ b hs hp =>
    have hcnt : (afterData s b).cnt.toNat = s.cnt.toNat + 1 := toNat_cnt_succ hp
    rw [csumTracks_readPayload (s := afterData s b) hs, hcnt]
    exact afterData_csumCovers b hs hp htracks
  | @lastData _ b hs hp hl =>
    have hlen : s.cnt.toNat + 1 = s.dlen.toNat := (lastPayload_iff s).1 hl
    refine (csumTracks_readTrailer rfl).2 ?_
    show csumCovers (afterData s b) s.dlen.toNat
    exact hlen ▸ afterData_csumCovers b hs hp htracks
  | fcs hs => exact Iff.mpr (csumTracks_readTrailer hs) ((csumTracks_readTrailer hs).1 htracks)
  | oversize | badEtx | mismatch | filtered | dispatch => exact csumTracks_awaitStart rfl
  | eos | fatal | stop => exact csumTracks_halted rfl

/-- Settles O42: the decoder's turn is a rule for an event, and every other act ignores the data path and
keeps the position, but for reset, which leaves the frame. -/
theorem everyStepKeepsTheRunningChecksum : Obligations.EveryStepKeepsTheRunningChecksum := by
  unfold Obligations.EveryStepKeepsTheRunningChecksum
  intro s t _ htracks hstep
  have hpop : csumTracks s.popAgenda := htracks
  rcases step_cases hstep with ⟨-, -, rfl⟩ | ⟨-, -, e, -, hev⟩ | ⟨-, rfl⟩ | ⟨-, rfl⟩ |
    ⟨enable, -, rfl⟩ | ⟨l, -, rfl⟩ | ⟨-, rfl⟩ | ⟨c, -, hcall⟩
  · exact hpop
  · exact hev.keeps_csumTracks (ignoresData_takeBeat.csumTracks (by simp) (by simp) hpop)
  · exact ignoresData_takePkt.csumTracks (by simp) (by simp) hpop
  · exact ignoresData_takeCtrl.csumTracks (by simp) (by simp) hpop
  · exact (ignoresData_requestControl enable).csumTracks (by simp) (by simp) hpop
  · exact hpop
  · exact csumTracks_awaitStart rfl
  · rcases hcall with ⟨-, rfl⟩ | ⟨-, ⟨p2, -, rfl⟩ | ⟨p2, -, rfl⟩ | ⟨f, -, -, rfl⟩⟩
    · exact hpop
    · exact hpop
    · exact hpop
    · exact (ignoresData_encodeFrame f).csumTracks (by simp) (by simp) hpop

end Sys2Proof.Machine
end

section
/-! PROOFS. 41_frame_decoder.md R126, R127, R130; 20_memory.md R51: the invariant of reachable states. Each part
of it has a lemma per rule of a handled event: the halt and its cause (`EventStep.halt_cases`), the position
(`EventStep.keeps_positionOk`); counters are kept because they move by counted outcomes only (`Emits`), the
buffer because a store keeps its form. Every act but the decoder's turn and reset leaves the place of the
decoder alone (`step_place`). -/

namespace Sys2Proof.Machine

/-! ### Counters in their width -/

/-- Each counter is below `2 ^ w`. -/
def countersBelow (w : Nat) (c : Counters) : Prop :=
  c.nOk < 2 ^ w ∧ c.nErr < 2 ^ w ∧ c.nCksum < 2 ^ w ∧ c.nFiltered < 2 ^ w ∧ c.nEncErr < 2 ^ w

theorem countersOk_iff (s : State) : countersOk s ↔ countersBelow s.cfg.cntW s.ctr := Iff.rfl

theorem countOutcome_below {w : Nat} {c : Counters} (o : CycleOutcome) (h : countersBelow w c) :
    countersBelow w (countOutcome w c o) := by
  have counted {b : Bool} {n : Nat} (hn : n < 2 ^ w) : (if b then incCounter w n else n) < 2 ^ w := by
    cases b
    · exact hn
    · exact incCounter_lt w n
  obtain ⟨hok, herr, hcksum, hfiltered, henc⟩ := h
  exact ⟨counted hok, counted herr, counted hcksum, counted hfiltered, counted henc⟩

theorem countOutcome_foldl_below {w : Nat} (os : List CycleOutcome) {c : Counters}
    (h : countersBelow w c) : countersBelow w (os.foldl (countOutcome w) c) := by
  induction os generalizing c with
  | nil => exact h
  | cons o os ih => exact ih (countOutcome_below o h)

theorem Emits.countersOk {l : List Output} {s t : State} (h : Emits l s t) (hs : countersOk s) :
    countersOk t := by
  rw [countersOk_iff, h.cfg, h.ctr]
  exact countOutcome_foldl_below _ hs

theorem step_countersOk {s t : State} (hs : countersOk s) (h : step s = .next t) : countersOk t := by
  by_cases hrst : s.nextAct = .rst
  · rw [step_of_nextAct hrst] at h
    cases h
    have hzero : 0 < 2 ^ s.cfg.cntW := Nat.two_pow_pos _
    exact ⟨hzero, hzero, hzero, hzero, hzero⟩
  · obtain ⟨l, hl⟩ := step_emits hrst h
    exact hl.countersOk hs

/-! ### The halt and its cause -/

/-- The cause and the outcome of an event that halts (41_frame_decoder.md R126, R127). -/
def haltOf : Event → Option (HaltCause × CycleOutcome)
  | .byte _ | .retry => none
  | .endOfStream => some (.endOfStream, .ioFatalEndOfStream)
  | .fatal => some (.fatal, .ioFatalFatal)
  | .stop => some (.stopped, .stopped)

theorem haltOf_eq_some {e : Event} {c : HaltCause} {o : CycleOutcome} (h : haltOf e = some (c, o)) :
    (e = .endOfStream ∧ c = .endOfStream ∧ o = .ioFatalEndOfStream) ∨
      (e = .fatal ∧ c = .fatal ∧ o = .ioFatalFatal) ∨ (e = .stop ∧ c = .stopped ∧ o = .stopped) := by
  cases e with
  | byte | retry => cases h
  | endOfStream => cases h; exact .inl ⟨rfl, rfl, rfl⟩
  | fatal => cases h; exact .inr (.inl ⟨rfl, rfl, rfl⟩)
  | stop => cases h; exact .inr (.inr ⟨rfl, rfl, rfl⟩)

theorem haltOf_cause_ne_none {e : Event} {c : HaltCause} {o : CycleOutcome}
    (h : haltOf e = some (c, o)) : c ≠ .none := by
  rcases haltOf_eq_some h with ⟨-, rfl, -⟩ | ⟨-, rfl, -⟩ | ⟨-, rfl, -⟩ <;> decide

/-- A rule halts with the cause and the outcome of its event, or leaves the halt state as it is. -/
theorem EventStep.halt_cases {e : Event} {s t : State} (h : EventStep e s t) :
    (∃ c o, haltOf e = some (c, o) ∧ t = haltWith c o s) ∨
      (t.haltCause = s.haltCause ∧ (t.st = .halted ↔ s.st = .halted)) := by
  cases h with
  | skip | retry | ignored => exact .inr ⟨rfl, Iff.rfl⟩
  | eos | fatal | stop => exact .inl ⟨_, _, rfl, rfl⟩
  | start hs | empty hs | payload hs | lastData hs | filtered hs => exact .inr ⟨rfl, by simp [hs]⟩
  | appid | lenhi | data | fcs => exact .inr ⟨rfl, Iff.rfl⟩
  | oversize hs | badEtx hs | mismatch hs =>
    exact .inr ⟨raiseError_haltCause _ _, by simp [hs]⟩
  | @dispatch _ f hs => exact .inr ⟨encodeFrame_haltCause f _, by simp [hs, dispatchFrame]⟩

/-- `halt_cause` is none exactly outside `Halted` (10_state.md R26). -/
abbrev haltConsistent (s : State) : Prop := s.haltCause = .none ↔ s.st ≠ .halted

theorem EventStep.keeps_haltConsistent {e : Event} {s t : State} (h : EventStep e s t)
    (hs : haltConsistent s) : haltConsistent t := by
  rcases h.halt_cases with ⟨c, o, hhalt, rfl⟩ | ⟨hcause, hst⟩
  · simpa [haltConsistent] using haltOf_cause_ne_none hhalt
  · rwa [haltConsistent, hcause, ne_eq, hst]

/-! ### The position -/

theorem positionOk_awaitStart {s : State} (hs : s.st = .awaitStart) : positionOk s = true := by
  simp [positionOk, hs]

theorem positionOk_halted {s : State} (hs : s.st = .halted) : positionOk s = true := by
  simp [positionOk, hs]

/-- Every rule for an event leads to a position that can arise (41_frame_decoder.md R130): an accepted
length is at most 255, and the byte count stays below it until the last payload byte. -/
theorem EventStep.keeps_positionOk {e : Event} {s t : State} (h : EventStep e s t)
    (hpos : positionOk s = true) : positionOk t = true := by
  cases h with
  | skip | retry | ignored => exact hpos
  | start => rfl
  | appid hs => exact Iff.mpr (positionOk_readHeader hs) (show (1 : BitVec 2) ≠ 3 by decide)
  | lenhi hs => exact Iff.mpr (positionOk_readHeader hs) (show (2 : BitVec 2) ≠ 3 by decide)
  | oversize | badEtx | mismatch => exact positionOk_awaitStart (raiseError_st _ _)
  | filtered | dispatch => exact positionOk_awaitStart rfl
  | eos | fatal | stop => exact positionOk_halted rfl
  | @empty _ b hs hx ho he =>
    have hzero : (dlenWithLo s.dlen b).toNat = 0 := (emptyLength_iff _).1 he
    exact (positionOk_readTrailer rfl).2 ⟨.inl rfl, hzero.trans_le (Nat.zero_le _), hzero.symm⟩
  | @payload _ b hs hx ho he =>
    have hmost : ¬ 255 < (dlenWithLo s.dlen b).toNat := by simp [← oversize_iff, ho]
    have hleast : ¬ (dlenWithLo s.dlen b).toNat = 0 := by simp [← emptyLength_iff, he]
    exact (positionOk_readPayload rfl).2
      ((payloadPosition_iff _).2 ⟨Nat.pos_of_ne_zero hleast, Nat.le_of_not_lt hmost⟩)
  | @data _ b hs hp hl =>
    obtain ⟨hlt, hle⟩ := (payloadPosition_iff s).1 hp
    have hcnt : (afterData s b).cnt.toNat = s.cnt.toNat + 1 := toNat_cnt_succ hp
    have hmore : ¬ s.cnt.toNat + 1 = s.dlen.toNat := by simp [← lastPayload_iff, hl]
    refine (positionOk_readPayload (s := afterData s b) hs).2 ((payloadPosition_iff _).2 ⟨?_, hle⟩)
    show (afterData s b).cnt.toNat < s.dlen.toNat
    omega
  | @lastData _ b hs hp hl =>
    obtain ⟨-, hle⟩ := (payloadPosition_iff s).1 hp
    have hcnt : (afterData s b).cnt.toNat = s.cnt.toNat + 1 := toNat_cnt_succ hp
    exact (positionOk_readTrailer rfl).2 ⟨.inl rfl, hle, hcnt.trans ((lastPayload_iff s).1 hl)⟩
  | fcs hs =>
    obtain ⟨-, hlen⟩ := (positionOk_readTrailer hs).1 hpos
    exact Iff.mpr (positionOk_readTrailer hs) ⟨.inr rfl, hlen⟩

/-! ### The place of the decoder in a step -/

/-- The registers that say where the decoder stands. -/
def placePart (s : State) : DecState × BitVec 2 × HaltCause × BitVec 13 × Byte :=
  (s.st, s.idx, s.haltCause, s.dlen, s.cnt)

theorem positionOk_of_place {s t : State} (h : placePart t = placePart s) :
    positionOk t = positionOk s := by
  simp only [placePart, Prod.mk.injEq] at h
  obtain ⟨hst, hidx, -, hdlen, hcnt⟩ := h
  simp only [positionOk, payloadPosition, hst, hidx, hdlen, hcnt]

theorem haltConsistent_of_place {s t : State} (h : placePart t = placePart s) :
    haltConsistent t ↔ haltConsistent s := by
  simp only [placePart, Prod.mk.injEq] at h
  obtain ⟨hst, -, hcause, -, -⟩ := h
  rw [haltConsistent, haltConsistent, hst, hcause]

/-- The decoder's place moves in its own turn and in a reset only. -/
theorem step_place {s t : State} (h : step s = .next t) :
    placePart t = placePart s ∨
      (s.nextAct = .rx ∧ EventStep (portEvent s.sample) s.popAgenda.takeBeat t) ∨
      t = s.popAgenda.applyReset := by
  rcases step_cases h with ⟨-, -, rfl⟩ | ⟨hact, -, e, rfl, hev⟩ | ⟨-, rfl⟩ | ⟨-, rfl⟩ |
    ⟨enable, -, rfl⟩ | ⟨l, -, rfl⟩ | ⟨-, rfl⟩ | ⟨c, -, hcall⟩
  · exact .inl rfl
  · exact .inr (.inl ⟨hact, hev⟩)
  · exact .inl (by simp [placePart])
  · exact .inl (by simp [placePart])
  · exact .inl (by simp [placePart])
  · exact .inl rfl
  · exact .inr (.inr rfl)
  · rcases hcall with ⟨-, rfl⟩ | ⟨-, ⟨p2, -, rfl⟩ | ⟨p2, -, rfl⟩ | ⟨f, -, -, rfl⟩⟩
    · exact .inl rfl
    · exact .inl rfl
    · exact .inl rfl
    · exact .inl (by simp [placePart])

theorem placePart_takeBeat (s : State) : placePart s.popAgenda.takeBeat = placePart s := by
  simp [placePart]

theorem step_positionOk {s t : State} (hpos : positionOk s = true) (h : step s = .next t) :
    positionOk t = true := by
  rcases step_place h with hsame | ⟨-, hev⟩ | rfl
  · exact (positionOk_of_place hsame).trans hpos
  · exact hev.keeps_positionOk ((positionOk_of_place (placePart_takeBeat s)).trans hpos)
  · exact positionOk_awaitStart rfl

theorem step_haltConsistent {s t : State} (hs : haltConsistent s) (h : step s = .next t) :
    haltConsistent t := by
  rcases step_place h with hsame | ⟨-, hev⟩ | rfl
  · exact (haltConsistent_of_place hsame).2 hs
  · exact hev.keeps_haltConsistent ((haltConsistent_of_place (placePart_takeBeat s)).2 hs)
  · simp [haltConsistent]

/-! ### The buffer and the agenda -/

theorem step_pbuf_wf {s t : State} (hs : s.pbuf.wf) (h : step s = .next t) : t.pbuf.wf := by
  rcases step_pbuf h with hsame | ⟨b, -, -, -, hpos, hstore⟩
  · rwa [hsame]
  · obtain ⟨hlt, hle⟩ := (payloadPosition_iff s).1 hpos
    rw [hstore]
    exact memStore_wf b hs (by rw [payloadCap_eq]; omega)

theorem EventStep.keeps_agenda {e : Event} {s t : State} (h : EventStep e s t) :
    t.agenda = s.agenda := by
  cases h with
  | skip | start | appid | lenhi | empty | payload | data | lastData | fcs | filtered => rfl
  | retry | eos | fatal | stop | ignored => rfl
  | oversize | badEtx | mismatch => exact raiseError_agenda _ _
  | @dispatch _ f => exact encodeFrame_agenda f _

/-- A step takes the head of the agenda and adds nothing (log entry 4). -/
theorem step_agenda {s t : State} (h : step s = .next t) : t.agenda = s.agenda.tail := by
  rcases step_cases h with ⟨-, -, rfl⟩ | ⟨-, -, e, -, hev⟩ | ⟨-, rfl⟩ | ⟨-, rfl⟩ |
    ⟨enable, -, rfl⟩ | ⟨l, -, rfl⟩ | ⟨-, rfl⟩ | ⟨c, -, hcall⟩
  · rfl
  · simpa using hev.keeps_agenda
  · exact takePkt_agenda _
  · exact takeCtrl_agenda _
  · exact requestControl_agenda enable _
  · rfl
  · rfl
  · rcases hcall with ⟨-, rfl⟩ | ⟨-, ⟨p2, -, rfl⟩ | ⟨p2, -, rfl⟩ | ⟨f, -, -, rfl⟩⟩
    · rfl
    · rfl
    · rfl
    · exact encodeFrame_agenda f _

/-! ### The statements -/

/-- Settles O40: each part of the invariant by its own lemma, the parameters being fixed. -/
theorem everyStepKeepsTheInvariant : Obligations.EveryStepKeepsTheInvariant := by
  unfold Obligations.EveryStepKeepsTheInvariant
  intro s t hinv h
  obtain ⟨hcfg, hcounters, hhalt, hbuf, hpos, hagenda⟩ := hinv
  obtain ⟨hsame, -⟩ := parametersFixedAndOutputsNeverWithdrawn s t h
  refine ⟨hsame ▸ hcfg, step_countersOk hcounters h, step_haltConsistent hhalt h,
    step_pbuf_wf hbuf h, step_positionOk hpos h, fun a ha => hagenda a ?_⟩
  rw [step_agenda h] at ha
  exact List.mem_of_mem_tail ha

/-- Settles O47: a step into `Halted` moves the decoder's place and is no reset, so it was a rule for a
terminal event. -/
theorem onlyTerminalEventsHalt : Obligations.OnlyTerminalEventsHalt := by
  unfold Obligations.OnlyTerminalEventsHalt
  intro s t hs h ht
  rcases step_place h with hsame | ⟨hact, hev⟩ | rfl
  · have hst : t.st = s.st := congrArg Prod.fst hsame
    exact absurd (hst.symm.trans ht) hs
  · rcases hev.halt_cases with ⟨c, o, hhalt, rfl⟩ | ⟨-, hst⟩
    · refine ⟨hact, by simp, ?_⟩
      rcases haltOf_eq_some hhalt with ⟨he, rfl, rfl⟩ | ⟨he, rfl, rfl⟩ | ⟨he, rfl, rfl⟩
      · exact .inl ⟨he, rfl, by simp⟩
      · exact .inr (.inl ⟨he, rfl, by simp⟩)
      · exact .inr (.inr ⟨he, rfl, by simp⟩)
    · exact absurd (by simpa using hst.1 ht) hs
  · cases ht

end Sys2Proof.Machine
end

section
/-! PROOFS. 41_frame_decoder.md R113 to R128: the operations of the Frame Decoder one by one. The whole next
state of an operation on a byte is that of its rule (`EventStep`), because the byte decodes to the operation
the position selects; the operations without a byte, which run at any position, are their guard and what it
guards. -/

namespace Sys2Proof.Machine

/-! ### An operation that is selected answers as its rule says -/

/-- A position that selects an operation on a byte has a row. -/
theorem hasRow_of_selects {st : DecState} {idx : BitVec 2} {i : Instr} {b : Byte}
    (hi : eventOf i = some (.byte b)) (hsel : selects st idx i) : hasRow st idx = true := by
  cases i with
  | asSkip | rhAppid | rhLenhi | rhLenlo | rtFcs | rtBadetx => simp [hasRow, hsel.1, hsel.2]
  | rtEtx => simp [hasRow, hsel.1, hsel.2]
  | asStx | rpData | haltIgn =>
    obtain rfl : st = _ := hsel
    rfl
  | _ => cases hi

/-- The rule for a byte gives the answer of the operation on that byte which the position selects. -/
theorem EventStep.exec_eq {i : Instr} {b : Byte} {s t : State} (h : EventStep (.byte b) s t)
    (hi : eventOf i = some (.byte b)) (hsel : selects s.st s.idx i) : exec i s = .next t := by
  have hdecode := decodeEvent_of_selects (hasRow_of_selects hi hsel) hi hsel
  have hanswer := h.handle
  rwa [handleEvent_eq, hdecode] at hanswer

theorem whenSelected_true {c : Bool} (hc : c = true) (k : Answer) : whenSelected c k = k := by
  rw [hc]
  rfl

/-! ### Registers as numbers -/

theorem dlenFromHi_eq (b : Byte) : dlenFromHi b = BitVec.ofNat 13 (b.toNat % 32 * 256) := by
  rw [← dlenFromHi_toNat, BitVec.ofNat_toNat, BitVec.setWidth_eq]

theorem dlenWithLo_eq (d : BitVec 13) (b : Byte) :
    dlenWithLo d b = BitVec.ofNat 13 (d.toNat / 256 * 256 + b.toNat) := by
  rw [← dlenWithLo_toNat, BitVec.ofNat_toNat, BitVec.setWidth_eq]

theorem cnt_succ_eq (c : Byte) : c + 1 = BitVec.ofNat 8 (c.toNat + 1) := by
  apply BitVec.eq_of_toNat_eq
  simp [BitVec.toNat_add]

theorem fold_zero (b : Byte) : fold 0 b = b := BitVec.zero_xor

/-- The state after RH.LENLO's register writes, in numbers (41_frame_decoder.md R117). -/
theorem afterLenLo_eq (s : State) (b : Byte) :
    afterLenLo s b =
      { s with
        dlen := BitVec.ofNat 13 (s.dlen.toNat / 256 * 256 + b.toNat)
        csum := s.csum ^^^ b
        cnt := 0
        idx := 0 } := by
  rw [afterLenLo, dlenWithLo_eq]
  rfl

/-! ### The statements: `AwaitStart` and `ReadHeader` -/

/-- Settles O1: the two rules of `AwaitStart`. -/
theorem awaitStartSkipsNoiseAndOpensHeader : Obligations.AwaitStartSkipsNoiseAndOpensHeader := by
  unfold Obligations.AwaitStartSkipsNoiseAndOpensHeader
  intro s hs
  exact ⟨fun b hb => (EventStep.skip hs hb).exec_eq rfl ⟨hs, hb⟩, (EventStep.start hs).exec_eq rfl hs⟩

/-- Settles O2: the two rules of the header that only write registers. -/
theorem headerBytesSeedChecksumAndLength : Obligations.HeaderBytesSeedChecksumAndLength := by
  unfold Obligations.HeaderBytesSeedChecksumAndLength
  intro s b hs
  refine ⟨fun hx => ?appid, fun hx => ?lenhi⟩
  case appid =>
    have hexec := (EventStep.appid (b := b) hs hx).exec_eq (i := .rhAppid b) rfl ⟨hs, hx⟩
    rwa [fold_zero] at hexec
  case lenhi =>
    have hexec := (EventStep.lenhi (b := b) hs hx).exec_eq (i := .rhLenhi b) rfl ⟨hs, hx⟩
    rwa [dlenFromHi_eq] at hexec

/-- Settles O3: the three rules for `LenLo`, chosen by the completed length. -/
theorem lengthGuardChoosesErrorTrailerOrPayload :
    Obligations.LengthGuardChoosesErrorTrailerOrPayload := by
  unfold Obligations.LengthGuardChoosesErrorTrailerOrPayload
  intro s b hs hx d w
  have hw : afterLenLo s b = w := afterLenLo_eq s b
  have hd : (dlenWithLo s.dlen b).toNat = d := dlenWithLo_toNat s.dlen b
  have hover := oversize_iff (dlenWithLo s.dlen b)
  have hempty := emptyLength_iff (dlenWithLo s.dlen b)
  rw [hd] at hover hempty
  have hexec {t : State} (h : EventStep (.byte b) s t) : exec (.rhLenlo b) s = .next t :=
    h.exec_eq rfl ⟨hs, hx⟩
  by_cases hlong : 255 < d
  · rw [if_pos hlong, hexec (.oversize hs hx (hover.2 hlong)), hw]
    rfl
  · have ho : oversize (dlenWithLo s.dlen b) = false := by rwa [← Bool.not_eq_true, hover]
    rw [if_neg hlong]
    by_cases hzero : d = 0
    · rw [if_pos hzero, hexec (.empty hs hx ho (hempty.2 hzero)), hw]
      rfl
    · have he : emptyLength (dlenWithLo s.dlen b) = false := by rwa [← Bool.not_eq_true, hempty]
      rw [if_neg hzero, hexec (.payload hs hx ho he), hw]
      rfl

/-! ### The statements: `ReadPayload` and `ReadTrailer` -/

/-- Settles O4: the two rules for a payload byte, and read after write of its store. -/
theorem payloadByteIsStoredAtCountAndFolded : Obligations.PayloadByteIsStoredAtCountAndFolded := by
  unfold Obligations.PayloadByteIsStoredAtCountAndFolded
  intro s b hs hlt hle
  have hp : payloadPosition s = true := (payloadPosition_iff s).2 ⟨hlt, hle⟩
  have hcap : s.cnt.toNat < payloadCap := by rw [payloadCap_eq]; omega
  refine ⟨memStore s.pbuf s.cnt.toNat b, ?_, fun a => memRead_memStore a b hcap⟩
  have hexec {t : State} (h : EventStep (.byte b) s t) : exec (.rpData b) s = .next t :=
    h.exec_eq rfl hs
  rw [← cnt_succ_eq]
  by_cases hlast : s.cnt.toNat + 1 = s.dlen.toNat
  · rw [if_pos hlast, if_pos hlast, hexec (.lastData hs hp ((lastPayload_iff s).2 hlast))]
    rfl
  · have hmore : lastPayload s = false := by rwa [← Bool.not_eq_true, lastPayload_iff]
    rw [if_neg hlast, if_neg hlast, hexec (.data hs hp hmore), ← hs]
    rfl

/-- Settles O5: the rules for the FCS and for a wrong last byte. -/
theorem trailerTakesFcsAndReportsBadTerminator :
    Obligations.TrailerTakesFcsAndReportsBadTerminator := by
  unfold Obligations.TrailerTakesFcsAndReportsBadTerminator
  intro s b hs
  exact ⟨fun hx => (EventStep.fcs hs hx).exec_eq rfl ⟨hs, hx⟩,
    fun hx hb => (EventStep.badEtx hs hx hb).exec_eq rfl ⟨hs, hx, hb⟩⟩

/-- An end marker handled in the trailer is RT.ETX. -/
theorem EventStep.exec_rtEtx {s t : State} (hs : s.st = .readTrailer) (hx : s.idx = 1)
    (h : EventStep (.byte etx) s t) : exec .rtEtx s = .next t :=
  h.exec_eq rfl ⟨hs, hx⟩

theorem fcsOk_iff (s : State) : fcsOk s = true ↔ s.csum = s.fcsRx := decide_eq_true_iff

theorem traceApp_iff (s : State) : traceApp s = true ↔ s.appId = 0x00 := decide_eq_true_iff

/-- Settles O6: the rules for a mismatch and for another channel, in that order. -/
theorem etxReportsMismatchThenFiltersChannel :
    Obligations.EtxReportsMismatchThenFiltersChannel := by
  unfold Obligations.EtxReportsMismatchThenFiltersChannel
  intro s hs hx
  refine ⟨fun hne => ?mismatch, fun heq happ => ?filtered⟩
  case mismatch =>
    have hf : fcsOk s = false := by rwa [← Bool.not_eq_true, fcsOk_iff]
    exact (EventStep.mismatch hs hx hf).exec_rtEtx hs hx
  case filtered =>
    have ha : traceApp s = false := by rwa [← Bool.not_eq_true, traceApp_iff]
    exact (EventStep.filtered hs hx ((fcsOk_iff s).2 heq) ha).exec_rtEtx hs hx

theorem encodeFrame_of_packet {f : Frame} {s : State} {packet : List Byte}
    (h : encodePacket s.cfg f.payload = some packet) :
    encodeFrame f s =
      ((s.lookup (formatCode (payloadByte f.payload fmtByte))).direction
        (isUplink (payloadByte f.payload fmtByte))).emitPacket packet := by
  rw [encodeFrame, h]

theorem encodeFrame_of_truncated {f : Frame} {s : State}
    (h : encodePacket s.cfg f.payload = none) :
    encodeFrame f s = s.countEncErr.emit (.outcome .encodeTruncated) := by
  rw [encodeFrame, h]

/-- Settles O7: the rule for a dispatch, and the two answers of the encoder. -/
theorem dispatchReportsFrameThenPacketOrTruncation :
    Obligations.DispatchReportsFrameThenPacketOrTruncation := by
  unfold Obligations.DispatchReportsFrameThenPacketOrTruncation
  intro s p hs hx hcsum happ hlen hread f
  have hbytes : memReadBytes s.pbuf 0 s.dlen.toNat = .ok p :=
    memReadBytes_ok.2 ⟨hlen, by simpa only [Nat.zero_add] using hread⟩
  have hframe : readFrame s = .ok f := by rw [readFrame_of_bytes hbytes, happ]
  have hexec : exec .rtEtx s = .next (dispatchFrame f { s with idx := 0 }) :=
    (EventStep.dispatch hs hx ((fcsOk_iff s).2 hcsum) ((traceApp_iff s).2 happ) hframe).exec_rtEtx hs hx
  refine ⟨fun packet hp => ?packet, fun hp => ?truncated⟩
  case packet =>
    rw [hexec, dispatchFrame, encodeFrame_of_packet hp, List.append_cons s.out]
    rfl
  case truncated =>
    rw [hexec, dispatchFrame, encodeFrame_of_truncated hp, List.append_cons s.out]
    rfl

/-! ### The statements: events that are no byte, and `Halted` -/

/-- Settles O8: the guard of these operations looks at the decoder state alone. -/
theorem eventsWithoutByteDoNothingOrHalt : Obligations.EventsWithoutByteDoNothingOrHalt := by
  unfold Obligations.EventsWithoutByteDoNothingOrHalt
  intro s hs
  have hrun (k : Answer) : whenSelected (s.st ≠ .halted) k = k :=
    whenSelected_true (decide_eq_true hs) k
  exact ⟨hrun _, hrun _, hrun _, hrun _⟩

/-- Settles O9: in `Halted` every event is HALT.IGN, by the rule that ignores it. -/
theorem haltedCoreIgnoresEveryEvent : Obligations.HaltedCoreIgnoresEveryEvent := by
  unfold Obligations.HaltedCoreIgnoresEveryEvent
  intro s e hs
  exact ⟨whenSelected_true (decide_eq_true hs) _, (EventStep.ignored hs).handle⟩

/-! ### Positions that cannot arise -/

theorem ofCode_of_unused {c : BitVec 3} (h : 5 ≤ c.toNat) : DecState.ofCode c = none := by
  revert c
  decide

/-- A position without a row is rejected as one that cannot arise (41_frame_decoder.md R112). -/
theorem positionReject_of_not_hasRow {st : DecState} {idx : BitVec 2} (h : hasRow st idx = false) :
    ∃ r, positionReject st idx = some r ∧ rejectRefusal r = .unreachablePosition := by
  cases st with
  | awaitStart | readPayload | halted => cases h
  | readHeader => exact ⟨.headerIndex, by simpa [positionReject, hasRow] using h, rfl⟩
  | readTrailer => exact ⟨.trailerIndex, by simpa [positionReject, hasRow] using h, rfl⟩

/-- A read that reaches beyond index 254 faults (20_memory.md R50). -/
theorem memReadBytes_of_beyond {m : Memory} {n : Nat} (h : payloadCap < n) :
    memReadBytes m 0 n = .error .pbufRange := by
  cases hm : memReadBytes m 0 n with
  | error f => cases f; rfl
  | ok p =>
    obtain ⟨hlen, hread⟩ := memReadBytes_ok.1 hm
    obtain ⟨hcap, -⟩ := memRead_ok.1 (hread payloadCap (by omega))
    omega

/-- Settles O34: each stop where it arises: the state code, the position, the payload byte's own check,
the read of the buffer, the encoder's precondition. -/
theorem unreachablePositionsStopByName : Obligations.UnreachablePositionsStopByName := by
  unfold Obligations.UnreachablePositionsStopByName
  refine ⟨fun c idx p hc => ?stateCode, fun s e hrow => ?position, fun s b hs hbeyond => ?payloadByte,
    fun s hs hx hcsum happ hlong => ?dispatch, fun f hf => ?record⟩
  case stateCode =>
    simp [decode, ofCode_of_unused hc]
  case position =>
    obtain ⟨r, hreject, hname⟩ := positionReject_of_not_hasRow hrow
    have hdecode : decodeEvent s.st s.idx e = .error r := by simp [decodeEvent, hreject]
    rw [handleEvent_eq, hdecode, ← hname]
  case payloadByte =>
    have hrow : hasRow s.st s.idx = true := by rw [hs]; rfl
    have hdecode : decodeEvent s.st s.idx (.byte b) = .ok (.rpData b) :=
      decodeEvent_of_selects hrow rfl hs
    have hp : ¬ payloadPosition s = true := by
      rw [payloadPosition_iff]
      omega
    rw [handleEvent_eq, hdecode]
    exact (whenSelected_true (decide_eq_true hs) _).trans (if_neg hp)
  case dispatch =>
    have hfault : readFrame s = .error .pbufRange := by
      simp [readFrame, memReadBytes_of_beyond (m := s.pbuf) hlong]
    have hf := (fcsOk_iff s).2 hcsum
    have ha := (traceApp_iff s).2 happ
    simp [exec, execRtEtx, whenSelected, hs, hx, hf, ha, hfault]
  case record =>
    have hwf : ¬ f.wf := fun ⟨happ, hlen⟩ => hf.elim (fun h => h happ) (Nat.not_lt_of_le hlen)
    exact if_neg hwf

end Sys2Proof.Machine
end

section
/-! PROOFS. 41_frame_decoder.md R125, R131, R132: runs of events. `Retry` leaves every position with a row as
it is, and every rule leads from such a position to another, so `Retry` may be left out of a run anywhere.
A trace frame runs to the dispatch of its payload, noise runs nowhere, and the four bytes of an oversize
header end in the error. -/

namespace Sys2Proof.Machine

/-! ### Positions with a row, along a run -/

/-- A rule leads from a position with a row to a position with a row (41_frame_decoder.md R112). -/
theorem EventStep.keeps_hasRow {e : Event} {s t : State} (h : EventStep e s t)
    (hrow : hasRow s.st s.idx = true) : hasRow t.st t.idx = true := by
  cases h with
  | skip | retry | ignored => exact hrow
  | start | empty | payload | lastData | filtered | dispatch | eos | fatal | stop => rfl
  | appid hs | lenhi hs | data hs | fcs hs => simp [hs, hasRow, afterData]
  | oversize | badEtx | mismatch => rw [raiseError_st]; rfl

theorem retry_step {s : State} (hrow : hasRow s.st s.idx = true) : EventStep .retry s s := by
  by_cases hs : s.st = .halted
  · exact .ignored hs
  · exact .retry hs (positionReject_eq_none.2 hrow)

/-- Settles O29, by induction on the events. -/
theorem retryAnywhereChangesNoRun : Obligations.RetryAnywhereChangesNoRun := by
  unfold Obligations.RetryAnywhereChangesNoRun
  intro es
  induction es with
  | nil => exact fun s _ => rfl
  | cons e es ih =>
    intro s hrow
    by_cases he : e = .retry
    · subst he
      rw [runEvents_cons (retry_step hrow), ih s hrow]
      rfl
    · rw [List.filter_cons_of_pos (by simpa using he)]
      cases hstep : handleEvent e s with
      | next t =>
        have hev := handleEvent_next hstep
        rw [runEvents_cons hev, runEvents_cons hev, ih t (hev.keeps_hasRow hrow)]
      | fault f => simp only [runEvents, hstep]
      | refused r => simp only [runEvents, hstep]

/-! ### A trace frame, to its dispatch -/

/-- `FRAME` of a payload the buffer holds: `LenHi` is zero, `LenLo` the length (30_encoding.md R92). -/
theorem frameBytes_eq (app : Byte) {p : List Byte} (hp : p.length ≤ 255) :
    frameBytes app p = rawFrame app 0 (BitVec.ofNat 8 p.length) p
      (compute ([app, 0, BitVec.ofNat 8 p.length] ++ p)) etx := by
  have hhi : lenHiOf p.length = 0 := by
    rw [lenHiOf, Nat.div_eq_of_lt (by omega)]
    rfl
  have hlo : lenLoOf p.length = BitVec.ofNat 8 p.length := by
    rw [lenLoOf, Nat.mod_eq_of_lt (by omega)]
  rw [frameBytes, hhi, hlo]

/-- Any payload of at most 255 bytes runs to the dispatch of exactly that payload, and nothing was counted
or emitted before (41_frame_decoder.md R131). -/
theorem frameBytes_run_to_dispatch {s : State} {p : List Byte} (hs : s.st = .awaitStart)
    (hp : p.length ≤ 255) :
    ∃ u, sameOutside s u ∧ runEvents (byteEvents (frameBytes traceAppId p)) s =
      .next (dispatchFrame ⟨traceAppId, p, compute ([traceAppId, 0, BitVec.ofNat 8 p.length] ++ p)⟩ u) := by
  obtain ⟨u, hrun, hst, hidx, hcsum, hbytes, happ, hsame⟩ :=
    header_payload_run s traceAppId 0 p hs hp rfl
  let u1 : State := { u with fcsRx := u.csum, idx := 1 }
  have hread : readFrame u1 = .ok ⟨traceAppId, p, u.csum⟩ :=
    happ ▸ readFrame_of_bytes (s := u1) hbytes
  have hfcs : EventStep (.byte u.csum) u u1 := .fcs hst hidx
  have hetx : EventStep (.byte etx) u1 (dispatchFrame ⟨traceAppId, p, u.csum⟩ { u1 with idx := 0 }) :=
    .dispatch hst rfl ((fcsOk_iff u1).2 rfl) ((traceApp_iff u1).2 happ) hread
  refine ⟨{ u1 with idx := 0 }, hsame, ?_⟩
  rw [← hcsum]
  calc runEvents (byteEvents (frameBytes traceAppId p)) s
      = runEvents (byteEvents ([stx, traceAppId, 0, BitVec.ofNat 8 p.length] ++ p) ++
          [.byte u.csum, .byte etx]) s := by
        simp [frameBytes_eq traceAppId hp, rawFrame, byteEvents, hcsum]
    _ = runEvents [.byte u.csum, .byte etx] u := runEvents_append hrun
    _ = _ := (runEvents_cons hfcs).trans (runEvents_cons hetx)

/-- A dispatch reports `Ok` of its record first, counts it, and counts no error. -/
theorem dispatchFrame_report (f : Frame) (s : State) :
    ∃ rest, (dispatchFrame f s).out = s.out ++ .outcome (.ok f) :: rest ∧
      (dispatchFrame f s).ctr.nOk = (s.ctr.nOk + 1) % 2 ^ s.cfg.cntW ∧
      (dispatchFrame f s).ctr.nErr = s.ctr.nErr := by
  rcases dispatchFrame_emits f s with henc | ⟨p, henc⟩
  · exact ⟨_, henc.out, by rw [henc.ctr]; rfl, by rw [henc.ctr]; rfl⟩
  · exact ⟨_, henc.out, by rw [henc.ctr]; rfl, by rw [henc.ctr]; rfl⟩

/-! ### Noise and an oversize header -/

theorem noise_run {s : State} {noise : List Byte} (hs : s.st = .awaitStart) (hnoise : isNoise noise) :
    runEvents (byteEvents noise) s = .next s := by
  induction noise with
  | nil => rfl
  | cons b noise ih =>
    obtain ⟨hb, hnoise⟩ := List.forall_mem_cons.1 hnoise
    exact (runEvents_cons (.skip hs hb)).trans (ih hnoise)

/-- A declared length above 255 is refused at the fourth byte (41_frame_decoder.md R117, R132). -/
theorem oversize_run {s : State} {app hi lo : Byte} (hs : s.st = .awaitStart)
    (hlong : 255 < hi.toNat % 32 * 256 + lo.toNat) :
    ∃ u, u.pbuf = s.pbuf ∧ sameOutside s u ∧
      runEvents (byteEvents [stx, app, hi, lo]) s = .next (raiseError .oversizeLength u) := by
  let s1 : State := { s with st := .readHeader, idx := 0 }
  let s2 : State := { s1 with appId := app, csum := fold 0 app, idx := 1 }
  let s3 : State := { s2 with dlen := dlenFromHi hi, csum := fold s2.csum hi, idx := 2 }
  have hd : (dlenWithLo s3.dlen lo).toNat = hi.toNat % 32 * 256 + lo.toNat := by
    rw [dlenWithLo_toNat, dlenFromHi_toNat]
    omega
  have hstx : EventStep (.byte stx) s s1 := .start hs
  have happ : EventStep (.byte app) s1 s2 := .appid rfl rfl
  have hhi : EventStep (.byte hi) s2 s3 := .lenhi rfl rfl
  have hlo : EventStep (.byte lo) s3 (raiseError .oversizeLength (afterLenLo s3 lo)) :=
    .oversize rfl rfl ((oversize_iff _).2 (hd ▸ hlong))
  refine ⟨afterLenLo s3 lo, rfl, ⟨rfl, rfl, rfl, rfl, rfl, rfl⟩, ?_⟩
  show runEvents [.byte stx, .byte app, .byte hi, .byte lo] s = _
  rw [runEvents_cons hstx, runEvents_cons happ, runEvents_cons hhi, runEvents_cons hlo]
  rfl

/-- Settles O27: the run to the dispatch, the run of noise, the run of an oversize header. -/
theorem decoderRoundTripsResynchronisesAndRefusesOversize :
    Obligations.DecoderRoundTripsResynchronisesAndRefusesOversize := by
  unfold Obligations.DecoderRoundTripsResynchronisesAndRefusesOversize
  refine ⟨fun s p hs hp => ?roundTrip, fun s noise rest hs hnoise => ?resynchronise,
    fun s app hi lo hs hlong => ?oversize⟩
  case roundTrip =>
    obtain ⟨u, ⟨hcfg, -, -, -, hout, hctr⟩, hrun⟩ := frameBytes_run_to_dispatch hs hp
    obtain ⟨rest, hreport, hok, herr⟩ := dispatchFrame_report _ u
    rw [hout] at hreport
    rw [hctr, hcfg] at hok
    rw [hctr] at herr
    exact ⟨_, rest, hrun, rfl, hok, herr, hreport⟩
  case resynchronise =>
    rw [byteEvents, List.map_append]
    exact runEvents_append (noise_run hs hnoise)
  case oversize =>
    obtain ⟨u, hbuf, ⟨hcfg, -, -, -, hout, hctr⟩, hrun⟩ := oversize_run hs hlong
    refine ⟨_, hrun, raiseError_st _ _, (raiseError_pbuf _ _).trans hbuf, ?_, ?_⟩
    · rw [raiseError_out, hout]
      rfl
    · rw [raiseError_ctr, hctr, hcfg]
      rfl

end Sys2Proof.Machine
end

section
/-! PROOFS. 42_channel_mapper.md R151 to R169: the mapper. The lookup of a code is that code's row; in an
admissible table the burst flag of a code is whether its target is a burst target, so the targets alone fix
what R153 says of the answers. -/

namespace Sys2Proof.Machine

/-! ### The lookup -/

/-- The row MAP.c is the call of the mapper with format code `c` (30_encoding.md R90). -/
theorem exec_mapInstr (c : BitVec 4) (ign : BitVec 3) (ul : BitVec 1) (s : State) :
    exec (mapInstr c ign ul) s = .next (s.lookup c) := by
  have h := runWord_mapper (fmtByteOf ign c ul) s
  rwa [runWord, decode_mapper, formatCode_fmtByteOf] at h

/-- The burst codes as numbers (42_channel_mapper.md R152). -/
theorem isBurst_eq (c : BitVec 4) : isBurst c = decide (c.toNat = 0 ∨ c.toNat = 2) := by
  revert c
  decide

/-! ### An admissible table -/

/-- In an admissible table the flag is read off the target (42_channel_mapper.md R153, point 4). -/
theorem mapCode_of_lutOk {p : Params} (h : p.lutOk) (c : BitVec 4) :
    mapCode p c = ⟨(p.target c).isBurstTarget, p.target c⟩ := by
  obtain ⟨-, -, -, hburst⟩ := h
  rw [hburst c]
  rfl

/-- The reserved codes (42_channel_mapper.md R153, point 2). -/
theorem target_unknown_of_lutOk {p : Params} (h : p.lutOk) {c : BitVec 4}
    (hc : c.toNat = 6 ∨ 13 ≤ c.toNat) : p.target c = .unknown := by
  obtain ⟨-, ⟨h6, h13, h14, h15⟩, -, -⟩ := h
  have hcodes : c = 6 ∨ c = 13 ∨ c = 14 ∨ c = 15 := by bv_omega
  obtain rfl | rfl | rfl | rfl := hcodes <;> assumption

/-- The code of the worked example (42_channel_mapper.md R153, point 3). -/
theorem target_bcch_of_lutOk {p : Params} (h : p.lutOk) {c : BitVec 4} (hc : c.toNat = 3) :
    p.target c = .bcch := by
  obtain ⟨-, -, h3, -⟩ := h
  obtain rfl : c = 3 := BitVec.eq_of_toNat_eq hc
  exact h3

theorem isBurstTarget_iff (t : Target) :
    t.isBurstTarget = true ↔ t = .burstNormal ∨ t = .accessBurst := by
  simp [Target.isBurstTarget]

/-! ### The direction -/

/-- The direction bit as a number (42_channel_mapper.md R151). -/
theorem uplinkBit_eq_one_iff (p2 : Byte) : uplinkBit p2 = 1 ↔ p2.toNat % 2 = 1 := by
  simp [uplinkBit, ← BitVec.toNat_inj]

theorem directionRest_eq (p2 : Byte) : directionRest p2 = BitVec.ofNat 7 (p2.toNat / 2) := by
  apply BitVec.eq_of_toNat_eq
  simp [directionRest, Nat.shiftRight_eq_div_pow]

/-! ### The statements -/

/-- Settles O11: the answer is the target of the code with its burst flag read off that target. -/
theorem admissibleTableFixesUnknownBcchAndBursts :
    Obligations.AdmissibleTableFixesUnknownBcchAndBursts := by
  unfold Obligations.AdmissibleTableFixesUnknownBcchAndBursts
  intro s t c ign ul hlut hexec
  rw [exec_mapInstr] at hexec
  obtain rfl : s.lookup c = t := Host.Outcome.next.inj hexec
  rw [lookup_mapOut, mapCode_of_lutOk hlut]
  refine ⟨fun hc => ?reserved, fun hc => ?bcch, isBurstTarget_iff _⟩
  case reserved =>
    rw [target_unknown_of_lutOk hlut hc]
    rfl
  case bcch =>
    rw [target_bcch_of_lutOk hlut hc]
    rfl

/-- Settles O10: the lookup of the code, its burst flag as numbers. -/
theorem mapperLookupAnswersBurstAndTarget : Obligations.MapperLookupAnswersBurstAndTarget := by
  unfold Obligations.MapperLookupAnswersBurstAndTarget
  intro s c ign ul
  rw [exec_mapInstr, ← isBurst_eq]
  rfl

/-- Settles O12: the sixteen entries of the default table, evaluated. -/
theorem defaultTableTargetsAndBytes : Obligations.DefaultTableTargetsAndBytes := by
  unfold Obligations.DefaultTableTargetsAndBytes
  decide

/-- Settles O13: the two rows leave only the direction, and decode chooses by the direction bit. -/
theorem directionIsBitZeroOfFormatByte : Obligations.DirectionIsBitZeroOfFormatByte := by
  unfold Obligations.DirectionIsBitZeroOfFormatByte
  intro s p2 hi
  refine ⟨rfl, rfl, ?_⟩
  simp only [decode, dirInstr, uplinkBit_eq_one_iff, directionRest_eq]

end Sys2Proof.Machine
end

section
/-! PROOFS. 43_gsmtap_encoder.md R180 to R188: the encoder. By `encodePacket_some` a packet is a header and the
trace content, and the header's length is fixed, so a packet splits back into the two; by `encodePacket_none`
a payload too short for its declared content is the only one that has no packet. -/

namespace Sys2Proof.Machine

/-! ### A packet split into header and content -/

/-- The header is what stands in the first `4 * GSMTAP_HDR_WORDS` bytes (43_gsmtap_encoder.md R183). -/
theorem take_header_of_encodePacket {cfg : Params} {p pk : List Byte}
    (h : encodePacket cfg p = some pk) :
    pk.take (4 * cfg.hdrWords.toNat) =
      buildHeader cfg (mapCode cfg (formatCode (payloadByte p 2))) (isUplink (payloadByte p 2)) := by
  obtain ⟨-, hpk⟩ := encodePacket_some.1 h
  rw [hpk]
  exact List.take_left' (buildHeader_length ..)

/-- What follows the header is the trace content (43_gsmtap_encoder.md R184). -/
theorem drop_header_of_encodePacket {cfg : Params} {p pk : List Byte}
    (h : encodePacket cfg p = some pk) : pk.drop (4 * cfg.hdrWords.toNat) = traceContent p := by
  obtain ⟨-, hpk⟩ := encodePacket_some.1 h
  rw [hpk]
  exact List.drop_left' (buildHeader_length ..)

/-- A payload that holds its declared content has exactly that much of it (43_gsmtap_encoder.md R184). -/
theorem traceContent_length {p : List Byte} (h : 5 + contentLength p ≤ p.length) :
    (traceContent p).length = contentLength p := by
  simp only [traceContent, metaBytes_eq, List.length_take, List.length_drop]
  omega

/-! ### The statements: packets -/

/-- Settles O17: the format code and the direction, all the header reads of the payload, agree when the five
low bits do. -/
theorem headerDependsOnFormatBitsOnly : Obligations.HeaderDependsOnFormatBitsOnly := by
  unfold Obligations.HeaderDependsOnFormatBitsOnly
  intro cfg p q pk qk hp hq hbits
  refine ⟨?header, drop_header_of_encodePacket hp, drop_header_of_encodePacket hq⟩
  case header =>
    obtain ⟨hcode, hdirection⟩ := formatFields_of_mod hbits
    rw [take_header_of_encodePacket hp, take_header_of_encodePacket hq, isUplink, isUplink, hcode,
      hdirection]

/-- Settles O18: the lengths of header and content add up, and content above 250 bytes with its five bytes
before it does not fit into 255. -/
theorem packetLengthIsHeaderPlusContent : Obligations.PacketLengthIsHeaderPlusContent := by
  unfold Obligations.PacketLengthIsHeaderPlusContent
  intro cfg p hcap
  refine ⟨fun pk hp => ?packet, fun hlong => ?tooLong⟩
  case packet =>
    obtain ⟨hfits, hpk⟩ := encodePacket_some.1 hp
    refine ⟨?_, by omega⟩
    rw [hpk, List.length_append, buildHeader_length, traceContent_length hfits]
  case tooLong =>
    exact encodePacket_none.2 (by omega)

/-! ### The statements: the operation -/

/-- GT.ENC always answers (43_gsmtap_encoder.md R180). -/
theorem exec_gtEnc (f : Frame) (s : State) : exec (.gtEnc f) s = .next (encodeFrame f s) := rfl

/-- Settles O14: the two answers of the encoder, chosen by whether the declared content fits. -/
theorem encoderEmitsHeaderAndContentOrTruncates :
    Obligations.EncoderEmitsHeaderAndContentOrTruncates := by
  unfold Obligations.EncoderEmitsHeaderAndContentOrTruncates
  intro s f n b len m packet
  rw [exec_gtEnc]
  refine ⟨fun hshort => ?truncated, fun hfits => ?packet⟩
  case truncated =>
    have hlen : f.payload.length < 5 + contentLength f.payload :=
      hshort.elim (Nat.lt_add_right _) id
    rw [encodeFrame_of_truncated (encodePacket_none.2 hlen)]
    rfl
  case packet =>
    have hpacket : encodePacket s.cfg f.payload = some packet :=
      encodePacket_some.2 ⟨hfits, rfl⟩
    rw [encodeFrame_of_packet hpacket]
    rfl

/-! ### The statements: the default layout -/

/-- Settles O16: with these offsets the laid fields are the sixteen bytes in order. -/
theorem defaultLayoutHeaderBytes : Obligations.DefaultLayoutHeaderBytes := by
  unfold Obligations.DefaultLayoutHeaderBytes
  intro p m ul hlayout hwords
  rw [buildHeader, headerFields, hlayout, hwords]
  rfl

/-- Settles O19: the payload declares the two bytes it holds, and its header is the default layout's for BCCH,
uplink. -/
theorem workedExampleEncodesToBcchPacket : Obligations.WorkedExampleEncodesToBcchPacket := by
  unfold Obligations.WorkedExampleEncodesToBcchPacket
  refine encodePacket_some.2 ⟨by decide, ?_⟩
  rw [defaultLayoutHeaderBytes defaultParams _ _ rfl rfl]
  rfl

end Sys2Proof.Machine
end

section
/-! PROOFS. 44_control_request.md R201 to R206, 10_state.md R34, R36: the control requests. A request is the
frame of its payload, so the decoder runs it to the dispatch of that payload, which declares no content and
encodes to the bare header. As an output it is loaded into the idle serialiser at once and leaves one byte
per taking. -/

namespace Sys2Proof.Machine

/-! ### A request as a frame -/

/-- The payload of a control request (44_control_request.md R203). -/
def controlPayload (enable : Bool) : List Byte :=
  [0x00, 0x1F, 0x00, 0x00, 0x00, if enable then 0x3F else 0x00]

theorem buildControl_eq_frameBytes (enable : Bool) :
    buildControl enable = frameBytes traceAppId (controlPayload enable) := by
  cases enable <;> decide

/-- The checksum of a request's own bytes, which R201 writes at index 10. -/
theorem compute_controlPayload (enable : Bool) :
    compute ([traceAppId, 0, BitVec.ofNat 8 (controlPayload enable).length] ++ controlPayload enable) =
      if enable then 0x26 else 0x19 := by
  cases enable <;> decide

theorem contentLength_controlPayload (enable : Bool) : contentLength (controlPayload enable) = 0 := by
  simp [contentLength, payloadByte, controlPayload]

theorem payloadByte_controlPayload_format (enable : Bool) :
    payloadByte (controlPayload enable) 2 = 0 := rfl

/-- The request declares no content: its packet is the header of code 0, downlink. -/
theorem encodePacket_controlPayload (cfg : Params) (enable : Bool) :
    encodePacket cfg (controlPayload enable) = some (buildHeader cfg (mapCode cfg 0) false) := by
  have hcode : formatCode 0 = 0 := by decide
  have hdownlink : isUplink 0 = false := by decide
  refine encodePacket_some.2 ⟨?_, ?_⟩
  · rw [contentLength_controlPayload]
    exact Nat.le_succ 5
  · rw [traceContent, contentLength_controlPayload, List.take_zero, List.append_nil,
      payloadByte_controlPayload_format, hcode, hdownlink]

theorem defaultHeader_code0_downlink :
    buildHeader defaultParams (mapCode defaultParams 0) false =
      [0x02, 0x04, 0x03, 0x00, 0x00, 0x00, 0x00, 0x00, 0x00, 0x00, 0x00, 0x00, 0x06,
        0x00, 0x00, 0x00] := by
  rw [defaultLayoutHeaderBytes defaultParams _ _ rfl rfl]
  rfl

/-- Settles O21: the two requests are the two frames of `buildControl_eq_frameBytes`. -/
theorem controlRequestsAreWellFormedFrames : Obligations.ControlRequestsAreWellFormedFrames :=
  ⟨buildControl_eq_frameBytes true, buildControl_eq_frameBytes false⟩

/-- Settles O22: a request runs to the dispatch of its payload, which encodes to the bare header. -/
theorem controlRequestLoopsBackAsTraceFrame : Obligations.ControlRequestLoopsBackAsTraceFrame := by
  unfold Obligations.ControlRequestLoopsBackAsTraceFrame
  intro s enable hs hdefault
  have hlen : (controlPayload enable).length ≤ 255 := by simp [controlPayload]
  obtain ⟨u, ⟨hcfg, -, -, -, hout, -⟩, hrun⟩ := frameBytes_run_to_dispatch hs hlen
  rw [← buildControl_eq_frameBytes, compute_controlPayload] at hrun
  refine ⟨_, hrun, rfl, ?_⟩
  rw [dispatchFrame_out, hout, hcfg, hdefault, dispatchOutputs, encodePacket_controlPayload,
    defaultHeader_code0_downlink]
  rfl

/-! ### A request as an output -/

theorem exec_crEn (s : State) : exec .crEn s = .next (s.requestControl true) := rfl

theorem exec_crDis (s : State) : exec .crDis s = .next (s.requestControl false) := rfl

theorem requestControl_of_idle {s : State} (enable : Bool) (hidle : s.ctrlTx = []) :
    s.requestControl enable = { s with ctrlTx := beats (buildControl enable) } :=
  if_pos hidle

theorem requestControl_of_busy {s : State} (enable : Bool) (hbusy : s.ctrlTx ≠ []) :
    s.requestControl enable = s :=
  if_neg hbusy

/-- Settles O20: an idle serialiser is loaded, a busy one keeps the state. -/
theorem controlRequestOffersTwelveBytesOrIsIgnored :
    Obligations.ControlRequestOffersTwelveBytesOrIsIgnored := by
  unfold Obligations.ControlRequestOffersTwelveBytesOrIsIgnored
  intro s
  rw [exec_crEn, exec_crDis]
  refine ⟨fun hidle => ?offered, fun hbusy => ?ignored⟩
  case offered =>
    rw [requestControl_of_idle true hidle, requestControl_of_idle false hidle]
    exact ⟨rfl, rfl⟩
  case ignored =>
    rw [requestControl_of_busy true hbusy, requestControl_of_busy false hbusy]
    exact ⟨rfl, rfl⟩

theorem step_request_idle {s : State} {enable : Bool} {rest : List Act} (hidle : s.ctrlTx = [])
    (hagenda : s.agenda = .ctrlReq enable :: rest) :
    step s = .next { s with agenda := rest, ctrlTx := beats (buildControl enable) } := by
  have hact : s.nextAct = .ctrlReq enable := by simp [State.nextAct, hagenda]
  rw [step_of_nextAct hact, doAct, runWord_control,
    requestControl_of_idle enable (s := s.popAgenda) hidle]
  simp [State.popAgenda, hagenda]

theorem step_taking {s : State} {b : Beat} {bs : List Beat} {rest : List Act}
    (htx : s.ctrlTx = b :: bs) (hagenda : s.agenda = .ctrl :: rest) :
    step s = .next { s with agenda := rest, ctrlTx := bs, ctrlLog := s.ctrlLog ++ [b] } := by
  have hact : s.nextAct = .ctrl := by simp [State.nextAct, hagenda]
  rw [step_of_nextAct hact, doAct]
  simp [State.takeCtrl, State.popAgenda, htx, hagenda]

/-- As many takings as the serialiser holds bytes move them all to the requester's record, in order. -/
theorem runSteps_takings {s : State} {bs : List Beat} {rest : List Act} (htx : s.ctrlTx = bs)
    (hagenda : s.agenda = List.replicate bs.length .ctrl ++ rest) :
    runSteps bs.length s =
      .next { s with agenda := rest, ctrlTx := [], ctrlLog := s.ctrlLog ++ bs } := by
  induction bs generalizing s with
  | nil =>
    have hsame : { s with agenda := rest, ctrlTx := [], ctrlLog := s.ctrlLog ++ [] } = s := by
      rw [List.append_nil, ← htx, show rest = s.agenda from hagenda.symm]
    exact congrArg Host.Outcome.next hsame.symm
  | cons b bs ih =>
    rw [List.length_cons, runSteps_succ (step_taking htx hagenda), ih rfl rfl]
    simp

/-- The beats of a request (44_control_request.md R201): the last flag on the twelfth byte only. -/
theorem beats_buildControl (enable : Bool) :
    beats (buildControl enable) =
      [0x02, 0x00, 0x00, 0x06, 0x00, 0x1F, 0x00, 0x00, 0x00, if enable then 0x3F else 0x00,
        if enable then 0x26 else 0x19].map (fun b : Byte => ⟨b, false⟩) ++ [⟨0x03, true⟩] := by
  cases enable <;> rfl

/-- Settles O52: one step loads the twelve beats, twelve takings move them to the record. -/
theorem controlRequestLeavesAsTwelveBytes : Obligations.ControlRequestLeavesAsTwelveBytes := by
  unfold Obligations.ControlRequestLeavesAsTwelveBytes
  intro s enable rest hidle hagenda
  have hlen : (beats (buildControl enable)).length = 12 := by rw [beats_buildControl]; rfl
  rw [← hlen] at hagenda
  rw [runSteps_succ (step_request_idle hidle hagenda), ← beats_buildControl, ← hlen, hidle]
  exact runSteps_takings rfl rfl

end Sys2Proof.Machine
end

section
/-! PROOFS. 60_exceptions.md R218, 41_frame_decoder.md R131: the one report of an accepted frame. Up to its
trailer the frame is `header_payload_run`; the last byte of the trailer is handled by exactly one of four
rules, in the fixed priority, and each returns to `AwaitStart`. -/

namespace Sys2Proof.Machine

@[simp] theorem dispatchFrame_haltCause (f : Frame) (s : State) :
    (dispatchFrame f s).haltCause = s.haltCause := encodeFrame_haltCause f _

@[simp] theorem dispatchFrame_ctrlTx (f : Frame) (s : State) :
    (dispatchFrame f s).ctrlTx = s.ctrlTx := encodeFrame_ctrlTx f _

/-- The last byte of a frame, whatever it is, is reported by the fixed priority: terminator, checksum,
channel, dispatch (60_exceptions.md R218). -/
theorem lastByte_step {s : State} {p : List Byte} (b : Byte) (hs : s.st = .readTrailer) (hx : s.idx = 1)
    (hm : memReadBytes s.pbuf 0 s.dlen.toNat = .ok p) :
    ∃ t, EventStep (.byte b) s t ∧ t.st = .awaitStart ∧ t.haltCause = s.haltCause ∧
      t.ctrlTx = s.ctrlTx ∧ t.out = s.out ++ frameOutputs s.cfg s.appId p s.csum s.fcsRx b := by
  by_cases hb : b = etx
  case neg =>
    exact ⟨_, .badEtx hs hx hb, raiseError_st _ _, raiseError_haltCause _ _, raiseError_ctrlTx _ _,
      by simp [frameOutputs, hb, errorOutcome]⟩
  subst hb
  by_cases hcsum : s.csum = s.fcsRx
  case neg =>
    have hfcs : fcsOk s = false := by rwa [← Bool.not_eq_true, fcsOk_iff]
    exact ⟨_, .mismatch hs hx hfcs, raiseError_st _ _, raiseError_haltCause _ _, raiseError_ctrlTx _ _,
      by simp [frameOutputs, hcsum, errorOutcome]⟩
  have hfcs : fcsOk s = true := (fcsOk_iff s).2 hcsum
  by_cases happ : s.appId = traceAppId
  case neg =>
    have hchan : traceApp s = false := decide_eq_false happ
    exact ⟨_, .filtered hs hx hfcs hchan, rfl, rfl, rfl,
      by simp [frameOutputs, hcsum, happ]⟩
  have hchan : traceApp s = true := (traceApp_iff s).2 happ
  exact ⟨_, .dispatch hs hx hfcs hchan (readFrame_of_bytes hm), rfl, dispatchFrame_haltCause _ _,
    dispatchFrame_ctrlTx _ _, by simp [frameOutputs, dispatchFrame_out, hcsum, happ]⟩

/-- Settles O26: the frame up to its trailer, the FCS byte, the report of the last byte. -/
theorem wholeFrameIsReportedOnceByPriority : Obligations.WholeFrameIsReportedOnceByPriority := by
  unfold Obligations.WholeFrameIsReportedOnceByPriority
  intro s app hi fcs etxByte p hs hp hhi lo
  obtain ⟨u, hrun, hst, hidx, hcsum, hbytes, happ, hcfg, hcause, hctrl, -, hout, -⟩ :=
    header_payload_run s app hi p hs hp hhi
  let v : State := { u with fcsRx := fcs, idx := 1 }
  have hfcs : EventStep (.byte fcs) u v := .fcs hst hidx
  obtain ⟨t, hlast, htst, htcause, htctrl, htout⟩ := lastByte_step (s := v) etxByte hst rfl hbytes
  have hreport : t.out = u.out ++ frameOutputs u.cfg u.appId p u.csum fcs etxByte := htout
  refine ⟨t, ?_, htst, htcause.trans hcause, htctrl.trans hctrl, ?_⟩
  · calc runEvents (byteEvents (rawFrame app hi lo p fcs etxByte)) s
        = runEvents (byteEvents ([stx, app, hi, lo] ++ p) ++ [.byte fcs, .byte etxByte]) s := by
          simp [rawFrame, byteEvents]
      _ = runEvents [.byte fcs, .byte etxByte] u := runEvents_append hrun
      _ = .next t := (runEvents_cons hfcs).trans (runEvents_cons hlast)
  · rw [hreport, hout, hcfg, happ, hcsum]

end Sys2Proof.Machine
end

section
/-! PROOFS. 70_reset_and_hazards.md R250, R251; 41_frame_decoder.md R128: reset and the halted core. A halted
core has one rule, to ignore the event, so of all steps but reset only a call of the encoder on its own can
move a counter or emit an output (`step_of_halted`), and that call leaves the position alone. -/

namespace Sys2Proof.Machine

/-! ### Reset -/

theorem step_rst {s : State} (hact : s.nextAct = .rst) : step s = .next s.popAgenda.applyReset :=
  step_of_nextAct hact

/-- Settles O38: the step is `applyReset`; its lemmas per field say which take a reset value and which stay. -/
theorem resetRestoresControlStateFromAnyState : Obligations.ResetRestoresControlStateFromAnyState := by
  unfold Obligations.ResetRestoresControlStateFromAnyState
  intro s hact
  exact ⟨s.popAgenda.applyReset, step_rst hact, by simp⟩

/-! ### The halted core -/

/-- `Halted` has one rule: the event is ignored (41_frame_decoder.md R128). -/
theorem EventStep.eq_of_halted {e : Event} {s t : State} (h : EventStep e s t) (hs : s.st = .halted) :
    t = s :=
  Host.Outcome.next.inj (h.handle.symm.trans (EventStep.ignored hs).handle)

/-- A step of a halted core that is no reset keeps the decoder's registers and the outputs, or calls the
encoder on its own (log entry 6). -/
theorem step_of_halted {s t : State} (hs : s.st = .halted) (hrst : s.nextAct ≠ .rst)
    (h : step s = .next t) :
    (decoderPart t = decoderPart s ∧ t.out = s.out) ∨
      ∃ f, s.nextAct = .call (.encode f) ∧ t = encodeFrame f s.popAgenda := by
  rcases step_cases h with ⟨-, -, rfl⟩ | ⟨-, -, e, -, hev⟩ | ⟨-, rfl⟩ | ⟨-, rfl⟩ |
    ⟨enable, -, rfl⟩ | ⟨l, -, rfl⟩ | ⟨hact, -⟩ | ⟨c, hact, hcall⟩
  · exact .inl ⟨rfl, rfl⟩
  · obtain rfl := hev.eq_of_halted ((takeBeat_st _).trans hs)
    exact .inl (by simp [decoderPart])
  · exact .inl (by simp [decoderPart])
  · exact .inl (by simp [decoderPart])
  · exact .inl (by simp [decoderPart])
  · exact .inl ⟨rfl, rfl⟩
  · exact absurd hact hrst
  · rcases hcall with ⟨-, rfl⟩ | ⟨-, ⟨p2, -, rfl⟩ | ⟨p2, -, rfl⟩ | ⟨f, rfl, -, rfl⟩⟩
    · exact .inl ⟨rfl, rfl⟩
    · exact .inl ⟨rfl, rfl⟩
    · exact .inl ⟨rfl, rfl⟩
    · exact .inr ⟨f, hact, rfl⟩

/-- Settles O46: the decoder's registers include the position and the cause, and a call of the encoder, the
one exception, writes neither of these. -/
theorem onlyResetLeavesHalted : Obligations.OnlyResetLeavesHalted := by
  unfold Obligations.OnlyResetLeavesHalted
  intro s t hs hrst h
  rcases step_of_halted hs hrst h with ⟨hpart, hout⟩ | ⟨f, hact, rfl⟩
  · have hregs := hpart
    simp only [decoderPart, Prod.mk.injEq] at hregs
    obtain ⟨hst, -, hcause, -⟩ := hregs
    exact ⟨hst.trans hs, hcause, fun _ => ⟨hpart, hout⟩⟩
  · exact ⟨(encodeFrame_st f _).trans hs, encodeFrame_haltCause f _,
      fun hcall => absurd hact (hcall (.encode f))⟩

end Sys2Proof.Machine
end
